-- ==== Sys2Proof/Word.lean ====
section
/-! DEFINITION. The word types of the spill transfer engine (rules R5, R15, R53, R76). -/

namespace Sys2Proof

/-- A Word: an opaque 32-bit unsigned integer, the atomic unit of transfer (R5, R53). -/
abbrev Word := BitVec 32

/-- An event word: the spec's 16-bit code of a step or primitive (R76). -/
abbrev EventWord := BitVec 16

/-- The index of one of the sixteen banks, the width of `bank_cursor` (R15). -/
abbrev BankIdx := BitVec 4

end Sys2Proof
end

