-- ==== Sys2Proof/Config.lean ====
section
/-! DEFINITION. What an implementation fixes (rules R5 to R7) and the free values of the model.
The parameters are plain data that `State` carries and no step writes (log 1). The free values are constants
with no body: nothing can be proved of what they are, so a claim holds whatever they are. -/

namespace Sys2Proof

/-- The parameters of R5 (default values of the spec), R6 (open) and R7 (open, with defaults). -/
structure Params where
  /-- `S`: words of the staging buffer (R6). -/
  stagingCapacity : Nat
  /-- `M`: words of the mailbox, its count word included (R6). -/
  mailboxCapacity : Nat
  /-- `CNT_LO`: lowest bit of the header's count field (R5). -/
  cntLo : Nat
  /-- `CNT_HI`: highest bit of the header's count field (R5). -/
  cntHi : Nat
  /-- `FOOTER_OFFSET` (R5). -/
  footerOffset : Nat
  /-- The graph of `BANK_ID_OF` (R7): `(header, footer, id)`; a pair that is not listed has `none`.
  Header and footer words are finitely many, so every function the spec allows is such a list (log 3). -/
  bankIds : List (Word × Word × BankIdx)
  /-- `EDGE_BOTH` (R7). -/
  edgeBoth : Bool
  deriving DecidableEq, Repr

namespace Config

/-- `N`, the number of banks (R5). -/
@[simp] def numBanks : Nat := 16

/-- `C`, the words of one bank (R5). -/
@[simp] def bankCapacity : Nat := 1024

/-- The parameters at `State.reset`: the spec's defaults (R5, R7) and, for the two parameters without one,
the sizes of its test vectors, S = 64 and M = 8 (DESIGN CHOICE, log 1; log 2 to 4 for the rest). -/
def standard : Params where
  stagingCapacity := 64
  mailboxCapacity := 8
  cntLo := 20
  cntHi := 30
  footerOffset := 1021
  bankIds := []
  edgeBoth := false

end Config

/-- The constraints a configuration must meet (R5, R6). -/
structure Params.Valid (p : Params) : Prop where
  staging : 1 ≤ p.stagingCapacity
  mailbox : 2 ≤ p.mailboxCapacity
  count_order : p.cntLo ≤ p.cntHi
  count_top : p.cntHi ≤ 31
  footer_low : 1 ≤ p.footerOffset
  footer_high : p.footerOffset < Config.bankCapacity

/-- The three memory spaces (R46). -/
inductive Space where
  | bank
  | staging
  | mailbox
  deriving DecidableEq, Repr

namespace Config

/-- FREE VALUE (log 13): what a memory word that nothing has written holds, a value of its place alone
(V1, V4: any value). -/
opaque unwritten : Space → Nat → Word

/-- FREE VALUE (log 15): `hdr_reg` after a RESET step (R176, V2). -/
opaque freeHdr : Nat → Word

/-- FREE VALUE (log 15): `ftr_reg` after a RESET step (R176, V2). -/
opaque freeFtr : Nat → Word

/-- FREE VALUE (log 15): `cnt_reg` after a RESET step, cut to the register's width where it is used. -/
opaque freeCnt : Nat → Nat

/-- FREE VALUE (log 15): `pay_idx` after a RESET step, cut to the register's width where it is used. -/
opaque freePay : Nat → Nat

/-- FREE VALUE (log 6): with no script left and an edge latched, how many polling steps come before DRAIN; any number, but a
number, as the handler agent's weak fairness asks (R55, R60). -/
opaque drainDelay : Nat → Nat

end Config
end Sys2Proof
end

