-- ==== Sys2Proof/Syntax.lean ====
section
/-! DEFINITION. The instructions: the fifteen steps of rule R77 and the fifteen primitives of rule R78,
one constructor per row of the opcode table, each with the operands its own rule gives it. -/

namespace Sys2Proof

/-- One step or primitive with its operands. -/
inductive Instr where
  /-- RESET (R176). -/
  | reset
  /-- FILL b, header, payload, footer (R91). -/
  | fill (b : BankIdx) (h : Word) (p : List Word) (f : Word)
  /-- LINE_RISE (R144). -/
  | lineRise
  /-- LINE_FALL (R145). -/
  | lineFall
  /-- SET_START v (R134). -/
  | setStart (v : Bool)
  /-- MBOX_READ i (R127). -/
  | mboxRead (i : Nat)
  /-- SCAN (R106). -/
  | scan
  /-- CHECK (R107). -/
  | check
  /-- PUSH_HDR (R108). -/
  | pushHdr
  /-- PUSH_PAY (R109). -/
  | pushPay
  /-- PUSH_FTR (R110). -/
  | pushFtr
  /-- CLEAR (R111). -/
  | clear
  /-- BEGIN_SPILL (R133). -/
  | beginSpill
  /-- IDLE (R112). -/
  | idle
  /-- DRAIN (R121). -/
  | drain
  /-- `header_of(b)` (R86). -/
  | headerOf (b : BankIdx)
  /-- `is_full(b)` (R87). -/
  | isFull (b : BankIdx)
  /-- `word_count(h)` (R88). -/
  | wordCount (h : Word)
  /-- `read_payload_word(b, k)` (R89). -/
  | readPayloadWord (b : BankIdx) (k : Nat)
  /-- `read_footer(b)` (R90). -/
  | readFooter (b : BankIdx)
  /-- `clear_header(b)` (R93). -/
  | clearHeader (b : BankIdx)
  /-- `reset()` of the staging buffer (R97). -/
  | stagingReset
  /-- `push(w)` (R98). -/
  | push (w : Word)
  /-- `pop_batch(maxWords)` (R99). -/
  | popBatch (maxWords : Nat)
  /-- `occupied()` (R100). -/
  | occupied
  /-- `read_level()` (R149). -/
  | readLevel
  /-- `acknowledge()` (R150). -/
  | acknowledge
  /-- `set(index)` of an indicator (R140). -/
  | indicatorSet (i : Fin 2)
  /-- `clear(index)` of an indicator (R140). -/
  | indicatorClear (i : Fin 2)
  /-- The formatted diagnostic write (R153). -/
  | diagnosticWrite
  deriving DecidableEq, Repr

namespace Instr

/-- Whether a row of the table is one of the fifteen steps (R77); the others are primitives, which are
"not a step" but a named piece of one (R78). -/
def isStep : Instr → Bool
  | .reset => true
  | .fill _ _ _ _ => true
  | .lineRise => true
  | .lineFall => true
  | .setStart _ => true
  | .mboxRead _ => true
  | .scan => true
  | .check => true
  | .pushHdr => true
  | .pushPay => true
  | .pushFtr => true
  | .clear => true
  | .beginSpill => true
  | .idle => true
  | .drain => true
  | .headerOf _ => false
  | .isFull _ => false
  | .wordCount _ => false
  | .readPayloadWord _ _ => false
  | .readFooter _ => false
  | .clearHeader _ => false
  | .stagingReset => false
  | .push _ => false
  | .popBatch _ => false
  | .occupied => false
  | .readLevel => false
  | .acknowledge => false
  | .indicatorSet _ => false
  | .indicatorClear _ => false
  | .diagnosticWrite => false

/-- The steps of the polling agent `P` (R77). -/
def isPolling : Instr → Bool
  | .scan | .check | .pushHdr | .pushPay | .pushFtr | .clear | .beginSpill | .idle => true
  | .reset | .fill _ _ _ _ | .lineRise | .lineFall | .setStart _ | .mboxRead _ | .drain => false
  | .headerOf _ | .isFull _ | .wordCount _ | .readPayloadWord _ _ | .readFooter _ | .clearHeader _ => false
  | .stagingReset | .push _ | .popBatch _ | .occupied | .readLevel | .acknowledge => false
  | .indicatorSet _ | .indicatorClear _ | .diagnosticWrite => false

end Instr
end Sys2Proof
end

