-- ==== Sys2Proof/WellFormed.lean ====
section
/-! DEFINITION. The operand ranges an instruction must keep for its operands to travel beside its event word
(R76; log 9) and, for a bank offset, to be a place in a bank (R47). -/

namespace Sys2Proof

/-- A number that one 32-bit word beside the event word can carry (log 9). -/
def fitsWord (n : Nat) : Bool := decide (n < 2 ^ 32)

/-- Well-formed operands. FILL: a non-zero header word and `k ≤ C − 1` payload words (R91). MBOX_READ and `pop_batch`: a number that fits
its word. `read_payload_word`: an offset below `C` (R47, R89; offset 0 is log 11). Every other operand's type
already holds exactly the values its rule allows. -/
def WellFormed : Instr → Bool
  | .fill _ h p _ => decide (h ≠ 0#32) && decide (p.length < Config.bankCapacity)
  | .mboxRead i => fitsWord i
  | .readPayloadWord _ k => decide (k < Config.bankCapacity)
  | .popBatch m => fitsWord m
  | .reset | .lineRise | .lineFall | .setStart _ => true
  | .scan | .check | .pushHdr | .pushPay | .pushFtr | .clear | .beginSpill | .idle | .drain => true
  | .headerOf _ | .isFull _ | .wordCount _ | .readFooter _ | .clearHeader _ => true
  | .stagingReset | .push _ | .occupied | .readLevel | .acknowledge => true
  | .indicatorSet _ | .indicatorClear _ | .diagnosticWrite => true

end Sys2Proof
end

