-- ==== Sys2Proof/Decode.lean ====
section
/-! DEFINITION. Event words (rules R76 to R78, R81): the decoder, total on any event, rejecting by name, and the
encoder. An event is an event word and the operand words that travel beside it (R76); the spec gives the operand
words no layout, so their order here is the model's (log 9). -/

namespace Sys2Proof

/-- An event word with the operand words beside it (R76). -/
structure Event where
  word : EventWord
  args : List Word
  deriving DecidableEq, Repr

/-- Why an event names nothing (R81). -/
inductive Reject where
  /-- `cls` and `code` name no step and no primitive (R81). -/
  | reservedCode
  /-- A bit of `arg` is set that R76 requires to be zero (R81). -/
  | nonzeroArg
  /-- The operand words beside the event word are too few or too many (log 9). -/
  | operandCount
  /-- An operand word holds no value the operand may take (log 9). -/
  | operandRange
  deriving DecidableEq, Repr

/-- The thirty operations of R77 and R78 without their operands. -/
inductive Op where
  | reset | fill | lineRise | lineFall | setStart | mboxRead
  | scan | check | pushHdr | pushPay | pushFtr | clear | beginSpill | idle
  | drain
  | headerOf | isFull | wordCount | readPayloadWord | readFooter | clearHeader
  | stagingReset | push | popBatch | occupied | readLevel | acknowledge
  | indicatorSet | indicatorClear | diagnosticWrite
  deriving DecidableEq, Repr

/-- `cls`, bits 15:14 (R76). -/
def eventCls (w : EventWord) : BitVec 2 := w.extractLsb' 14 2

/-- `code`, bits 13:10 (R76). -/
def eventCode (w : EventWord) : BitVec 4 := w.extractLsb' 10 4

/-- `arg`, bits 9:0 (R76). -/
def eventArg (w : EventWord) : BitVec 10 := w.extractLsb' 0 10

/-- Environment steps, `cls = 00` (R77). -/
def envOp (code : Nat) : Option Op :=
  match code with
  | 0 => some .reset
  | 1 => some .fill
  | 2 => some .lineRise
  | 3 => some .lineFall
  | 4 => some .setStart
  | 5 => some .mboxRead
  | _ => none

/-- Polling-agent steps, `cls = 01` (R77); for SCAN to CLEAR the code is the `phase` value. -/
def pollOp (code : Nat) : Option Op :=
  match code with
  | 0 => some .scan
  | 1 => some .check
  | 2 => some .pushHdr
  | 3 => some .pushPay
  | 4 => some .pushFtr
  | 5 => some .clear
  | 6 => some .beginSpill
  | 7 => some .idle
  | _ => none

/-- Handler-agent steps, `cls = 10` (R77). -/
def handlerOp (code : Nat) : Option Op :=
  match code with
  | 0 => some .drain
  | _ => none

/-- Primitives, `cls = 11` (R78). -/
def primOp (code : Nat) : Option Op :=
  match code with
  | 0 => some .headerOf
  | 1 => some .isFull
  | 2 => some .wordCount
  | 3 => some .readPayloadWord
  | 4 => some .readFooter
  | 5 => some .clearHeader
  | 6 => some .stagingReset
  | 7 => some .push
  | 8 => some .popBatch
  | 9 => some .occupied
  | 10 => some .readLevel
  | 11 => some .acknowledge
  | 12 => some .indicatorSet
  | 13 => some .indicatorClear
  | 14 => some .diagnosticWrite
  | _ => none

/-- The operation that `cls` and `code` name; `none` for the reserved codes of R81. -/
def opOf (cls : BitVec 2) (code : BitVec 4) : Option Op :=
  match cls.toNat with
  | 0 => envOp code.toNat
  | 1 => pollOp code.toNat
  | 2 => handlerOp code.toNat
  | _ => primOp code.toNat

/-- The bits of `arg` an operation uses (R76); every other bit must be zero. -/
def argMask (op : Op) : BitVec 10 :=
  match op with
  | .fill => 0x00F#10
  | .setStart => 0x001#10
  | .reset | .lineRise | .lineFall | .mboxRead => 0x000#10
  | .scan | .check | .pushHdr | .pushPay | .pushFtr | .clear | .beginSpill | .idle | .drain => 0x000#10
  | .headerOf | .isFull | .wordCount | .readPayloadWord | .readFooter | .clearHeader => 0x000#10
  | .stagingReset | .push | .popBatch | .occupied | .readLevel | .acknowledge => 0x000#10
  | .indicatorSet | .indicatorClear | .diagnosticWrite => 0x000#10

/-- An operation without operand words beside it. -/
def noOperand (i : Instr) (args : List Word) : Except Reject Instr :=
  match args with
  | [] => .ok i
  | _ :: _ => .error .operandCount

/-- An operation with one operand word beside it. -/
def oneOperand (mk : Word → Except Reject Instr) (args : List Word) : Except Reject Instr :=
  match args with
  | [w] => mk w
  | _ => .error .operandCount

/-- A bank index in an operand word: `0..15`. -/
def bankOperand (mk : BankIdx → Instr) (w : Word) : Except Reject Instr :=
  if w.toNat < Config.numBanks then .ok (mk (w.setWidth 4)) else .error .operandRange

/-- An indicator index in an operand word: `0` or `1` (R140). -/
def indicatorOperand (mk : Fin 2 → Instr) (w : Word) : Except Reject Instr :=
  if h : w.toNat < 2 then .ok (mk ⟨w.toNat, h⟩) else .error .operandRange

/-- FILL's words: header, payload in ascending offset, footer last (log 9). -/
def fillOperands (b : BankIdx) (args : List Word) : Except Reject Instr :=
  match args with
  | h :: x :: xs =>
    if (x :: xs).length ≤ Config.bankCapacity then
      .ok (.fill b h (x :: xs).dropLast ((x :: xs).getLastD 0))
    else .error .operandRange
  | _ => .error .operandCount

/-- `read_payload_word`'s words: bank index, then bank-relative offset (log 9). -/
def payloadOperands (args : List Word) : Except Reject Instr :=
  match args with
  | [b, k] =>
    if k.toNat < Config.bankCapacity then bankOperand (fun b => .readPayloadWord b k.toNat) b
    else .error .operandRange
  | _ => .error .operandCount

/-- The instruction an operation makes of its argument bits and operand words. -/
def withOperands (op : Op) (arg : BitVec 10) (args : List Word) : Except Reject Instr :=
  match op with
  | .reset => noOperand .reset args
  | .fill => fillOperands (arg.setWidth 4) args
  | .lineRise => noOperand .lineRise args
  | .lineFall => noOperand .lineFall args
  | .setStart => noOperand (.setStart (arg.getLsbD 0)) args
  | .mboxRead => oneOperand (fun w => .ok (.mboxRead w.toNat)) args
  | .scan => noOperand .scan args
  | .check => noOperand .check args
  | .pushHdr => noOperand .pushHdr args
  | .pushPay => noOperand .pushPay args
  | .pushFtr => noOperand .pushFtr args
  | .clear => noOperand .clear args
  | .beginSpill => noOperand .beginSpill args
  | .idle => noOperand .idle args
  | .drain => noOperand .drain args
  | .headerOf => oneOperand (bankOperand .headerOf) args
  | .isFull => oneOperand (bankOperand .isFull) args
  | .wordCount => oneOperand (fun w => .ok (.wordCount w)) args
  | .readPayloadWord => payloadOperands args
  | .readFooter => oneOperand (bankOperand .readFooter) args
  | .clearHeader => oneOperand (bankOperand .clearHeader) args
  | .stagingReset => noOperand .stagingReset args
  | .push => oneOperand (fun w => .ok (.push w)) args
  | .popBatch => oneOperand (fun w => .ok (.popBatch w.toNat)) args
  | .occupied => noOperand .occupied args
  | .readLevel => noOperand .readLevel args
  | .acknowledge => noOperand .acknowledge args
  | .indicatorSet => oneOperand (indicatorOperand .indicatorSet) args
  | .indicatorClear => oneOperand (indicatorOperand .indicatorClear) args
  | .diagnosticWrite => noOperand .diagnosticWrite args

/-- The decoder of event words (R76 to R78); R81 names what it rejects. -/
def decode (e : Event) : Except Reject Instr :=
  match opOf (eventCls e.word) (eventCode e.word) with
  | none => .error .reservedCode
  | some op =>
    if eventArg e.word &&& ~~~ argMask op = 0#10 then withOperands op (eventArg e.word) e.args
    else .error .nonzeroArg

/-- A bank index as an operand word. -/
def bankWordOf (b : BankIdx) : Word := b.setWidth 32

/-- The encoder: the event words of R77 and R78 and the operand words beside them (log 9). -/
def encode : Instr → Event
  | .reset => ⟨0x0000#16, []⟩
  | .fill b h p f => ⟨0x0400#16 + b.setWidth 16, h :: (p ++ [f])⟩
  | .lineRise => ⟨0x0800#16, []⟩
  | .lineFall => ⟨0x0C00#16, []⟩
  | .setStart v => ⟨0x1000#16 + (BitVec.ofBool v).setWidth 16, []⟩
  | .mboxRead i => ⟨0x1400#16, [BitVec.ofNat 32 i]⟩
  | .scan => ⟨0x4000#16, []⟩
  | .check => ⟨0x4400#16, []⟩
  | .pushHdr => ⟨0x4800#16, []⟩
  | .pushPay => ⟨0x4C00#16, []⟩
  | .pushFtr => ⟨0x5000#16, []⟩
  | .clear => ⟨0x5400#16, []⟩
  | .beginSpill => ⟨0x5800#16, []⟩
  | .idle => ⟨0x5C00#16, []⟩
  | .drain => ⟨0x8000#16, []⟩
  | .headerOf b => ⟨0xC000#16, [bankWordOf b]⟩
  | .isFull b => ⟨0xC400#16, [bankWordOf b]⟩
  | .wordCount h => ⟨0xC800#16, [h]⟩
  | .readPayloadWord b k => ⟨0xCC00#16, [bankWordOf b, BitVec.ofNat 32 k]⟩
  | .readFooter b => ⟨0xD000#16, [bankWordOf b]⟩
  | .clearHeader b => ⟨0xD400#16, [bankWordOf b]⟩
  | .stagingReset => ⟨0xD800#16, []⟩
  | .push w => ⟨0xDC00#16, [w]⟩
  | .popBatch m => ⟨0xE000#16, [BitVec.ofNat 32 m]⟩
  | .occupied => ⟨0xE400#16, []⟩
  | .readLevel => ⟨0xE800#16, []⟩
  | .acknowledge => ⟨0xEC00#16, []⟩
  | .indicatorSet i => ⟨0xF000#16, [BitVec.ofNat 32 i.val]⟩
  | .indicatorClear i => ⟨0xF400#16, [BitVec.ofNat 32 i.val]⟩
  | .diagnosticWrite => ⟨0xF800#16, []⟩

/-- The row of the opcode table an instruction belongs to: its match word and its mask (R78's last sentence:
FILL's mask is 0xFFF0, SET_START's 0xFFFE, every other row's 0xFFFF). -/
def tableRow : Instr → EventWord × EventWord
  | .fill _ _ _ _ => (0x0400#16, 0xFFF0#16)
  | .setStart _ => (0x1000#16, 0xFFFE#16)
  | .mboxRead _ => (0x1400#16, 0xFFFF#16)
  | .reset => (0x0000#16, 0xFFFF#16)
  | .lineRise => (0x0800#16, 0xFFFF#16)
  | .lineFall => (0x0C00#16, 0xFFFF#16)
  | .scan => (0x4000#16, 0xFFFF#16)
  | .check => (0x4400#16, 0xFFFF#16)
  | .pushHdr => (0x4800#16, 0xFFFF#16)
  | .pushPay => (0x4C00#16, 0xFFFF#16)
  | .pushFtr => (0x5000#16, 0xFFFF#16)
  | .clear => (0x5400#16, 0xFFFF#16)
  | .beginSpill => (0x5800#16, 0xFFFF#16)
  | .idle => (0x5C00#16, 0xFFFF#16)
  | .drain => (0x8000#16, 0xFFFF#16)
  | .headerOf _ => (0xC000#16, 0xFFFF#16)
  | .isFull _ => (0xC400#16, 0xFFFF#16)
  | .wordCount _ => (0xC800#16, 0xFFFF#16)
  | .readPayloadWord _ _ => (0xCC00#16, 0xFFFF#16)
  | .readFooter _ => (0xD000#16, 0xFFFF#16)
  | .clearHeader _ => (0xD400#16, 0xFFFF#16)
  | .stagingReset => (0xD800#16, 0xFFFF#16)
  | .push _ => (0xDC00#16, 0xFFFF#16)
  | .popBatch _ => (0xE000#16, 0xFFFF#16)
  | .occupied => (0xE400#16, 0xFFFF#16)
  | .readLevel => (0xE800#16, 0xFFFF#16)
  | .acknowledge => (0xEC00#16, 0xFFFF#16)
  | .indicatorSet _ => (0xF000#16, 0xFFFF#16)
  | .indicatorClear _ => (0xF400#16, 0xFFFF#16)
  | .diagnosticWrite => (0xF800#16, 0xFFFF#16)

/-- How many operand words an operation carries at least (log 9). -/
def operandWords (op : Op) : Nat :=
  match op with
  | .fill => 2
  | .readPayloadWord => 2
  | .mboxRead | .headerOf | .isFull | .wordCount | .readFooter | .clearHeader => 1
  | .push | .popBatch | .indicatorSet | .indicatorClear => 1
  | .reset | .lineRise | .lineFall | .setStart => 0
  | .scan | .check | .pushHdr | .pushPay | .pushFtr | .clear | .beginSpill | .idle | .drain => 0
  | .stagingReset | .occupied | .readLevel | .acknowledge | .diagnosticWrite => 0

/-- The `n` operand words that follow an event word in a bit string, lowest first. -/
def operandsOfBits : Nat → Nat → List Word
  | 0, _ => []
  | n + 1, v => BitVec.ofNat 32 v :: operandsOfBits n (v / 2 ^ 32)

/-- The event in a bit string: the event word in bits 15:0, then as many operand words of 32 bits as its
operation carries. -/
def eventOfBits (v : Nat) : Event :=
  let w := BitVec.ofNat 16 v
  match opOf (eventCls w) (eventCode w) with
  | none => ⟨w, []⟩
  | some op => ⟨w, operandsOfBits (operandWords op) (v / 2 ^ 16)⟩

/-- What the decoder reads from the low `nbits` bits of `w`, every bit above them zero. -/
def decodeTableWord (nbits w : Nat) : Option Instr :=
  match decode (eventOfBits (w % 2 ^ nbits)) with
  | .ok i => some i
  | .error _ => none

end Sys2Proof
end

