-- ==== Sys2Proof/Machine/State.lean ====
section
/-! DEFINITION. The state of the block (rule R13), the model's own bookkeeping beside it, the reasons a step can
stop, and the state after reset (rule R40). -/

namespace Sys2Proof.Machine

/-- `spill_state` (R14); the code 0b11 has no value here (E1). -/
inductive SpillState where
  | ready
  | beamOn
  | beamOff
  deriving DecidableEq, Repr

/-- `phase` (R16), the polling agent's position; the code 7 has no value here (E1). -/
inductive Phase where
  | scan
  | check
  | pushHdr
  | pushPay
  | pushFtr
  | clear
  | halt
  deriving DecidableEq, Repr

/-- One memory space: the words something has written, as (index, word), indices strictly rising. A place that is
not listed has not been written (log 13). -/
abbrev Memory := List (Nat × Word)

/-- What a call that returns a value returned (R86 to R90, R99, R100, R127, R149). -/
inductive Ret where
  | none
  | word (w : Word)
  | bool (b : Bool)
  | int (n : Nat)
  | level (high : Bool)
  | batch (count : Nat) (words : List Word)
  deriving DecidableEq, Repr

/-- An entry of the event history (R33): a step taken, or a write of `spill_state` that changed its value. -/
inductive HistEntry where
  | step (e : Event)
  | transition (old new : SpillState)
  deriving DecidableEq, Repr

/-- The whole state: the elements of R13, then the model's own fields. -/
structure State where
  /-- R14 -/
  spillState : SpillState
  /-- R15 -/
  bankCursor : BankIdx
  /-- R16 -/
  phase : Phase
  /-- R17 -/
  hdrReg : Word
  /-- R18 -/
  ftrReg : Word
  /-- R19 -/
  cntReg : Nat
  /-- R20 -/
  payIdx : Nat
  /-- R21 -/
  wr : Nat
  /-- R22 -/
  rd : Nat
  /-- R23 -/
  occupied : Nat
  /-- R25; word `(b, o)` stands at index `b × C + o` (R50) -/
  bank : Memory
  /-- R26 -/
  staging : Memory
  /-- R27 -/
  mailbox : Memory
  /-- R28 -/
  lineLevel : Bool
  /-- R29 -/
  edgeLatch : Bool
  /-- R30 -/
  startEn : Bool
  /-- R31 -/
  ind0 : Bool
  /-- R31 -/
  ind1 : Bool
  /-- R32 -/
  fltStagingOvf : Bool
  /-- R32 -/
  fltBankCount : Bool
  /-- R32 -/
  fltIdMismatch : Bool
  /-- The model's: the parameters of R5 to R7; no step writes them (log 1). -/
  cfg : Params
  /-- The model's: the steps to come, in order (R55; log 5). -/
  script : List Event
  /-- The model's: the counter free values are applied to (log 6, log 15). -/
  tick : Nat
  /-- The model's: with no script left, how many polling steps DRAIN still waits; `none` until drawn (log 6). -/
  wait : Option Nat
  /-- The model's: what the last value-returning call returned, `mb_rdata` of R39 among them (log 12). -/
  ret : Ret
  /-- The model's: the event history of R33, newest entry first (log 21). -/
  history : List HistEntry
  deriving DecidableEq, Repr

/-- Why the machine stops with a fault. Every one is an index outside its space, which the spec calls unreachable
(R47 to R49); each is safe: the machine stops where the spec gives no such access (log 19). -/
inductive Fault where
  /-- `BankRead` or `BankWrite` at an offset that is not below `C` (R47): raised by CHECK and `read_footer` under a
  configuration that breaks R5, by PUSH_PAY in a state no run reaches, by `read_payload_word` and FILL with operands that are
  not well-formed. Safe. -/
  | bankIndex (b : BankIdx) (o : Nat)
  /-- `StagRead` or `StagWrite` at an index that is not below `S` (R48): raised by `pop_batch` and DRAIN in a state no
  run reaches. Safe. -/
  | stagingIndex (a : Nat)
  /-- `MboxRead` or `MboxWrite` at an index that is not below `M` (R49): raised by MBOX_READ with an index outside
  `0..M − 1`, by DRAIN under a configuration that breaks R6. Safe. -/
  | mailboxIndex (i : Nat)
  deriving DecidableEq, Repr

/-- Why the machine has no meaning for what it is given. -/
inductive Refusal where
  /-- An instruction without a meaning yet; raised by `exec`'s refused arms only (there are none). Safe. -/
  | notModelled (mnemonic : String)
  /-- The next event of the script names nothing: "invalid", no hardware behaviour attaches (R81); raised by `step`.
  Safe (log 8). -/
  | invalidEvent (why : Reject)
  deriving DecidableEq, Repr

/-- The state after reset with the given parameters and input levels (R40): the values the table gives; no memory word
written; the four record registers, to which the spec gives no value, 0 (DESIGN CHOICE, log 16). -/
def State.resetWith (cfg : Params) (line start : Bool) : State where
  spillState := .ready
  bankCursor := 0#4
  phase := .scan
  hdrReg := 0#32
  ftrReg := 0#32
  cntReg := 0
  payIdx := 0
  wr := 0
  rd := 0
  occupied := 0
  bank := []
  staging := []
  mailbox := []
  lineLevel := line
  edgeLatch := false
  startEn := start
  ind0 := true
  ind1 := false
  fltStagingOvf := false
  fltBankCount := false
  fltIdMismatch := false
  cfg := cfg
  script := []
  tick := 0
  wait := none
  ret := .none
  history := []

/-- The state after reset: standard parameters (log 1), both inputs low (DESIGN CHOICE, log 17). -/
def State.reset : State := State.resetWith Config.standard false false

end Sys2Proof.Machine
end

