-- ==== Sys2Proof/Machine/Ops.lean ====
section
/-! DEFINITION. The named operations over memories and registers: word accesses (rules R47 to R49), the cursor
controller (R97 to R100), taking a detected condition (R153 to R156, R159), the synchronizer's and the indicators'
operations, and the event history (R33). -/

namespace Sys2Proof.Machine

/-! ## One memory space -/

/-- The word written at an index, `none` where nothing has been written. -/
def Memory.get (m : Memory) (a : Nat) : Option Word :=
  match m with
  | [] => none
  | (k, v) :: rest => if k = a then some v else Memory.get rest a

/-- Write one word, keeping the indices strictly rising. -/
def Memory.put (m : Memory) (a : Nat) (v : Word) : Memory :=
  match m with
  | [] => [(a, v)]
  | (k, u) :: rest =>
    if a < k then (a, v) :: (k, u) :: rest
    else if a = k then (a, v) :: rest
    else (k, u) :: Memory.put rest a v

/-- Every listed index is above `lo`, and they rise strictly. -/
def Memory.risingFrom (lo : Nat) (m : Memory) : Bool :=
  match m with
  | [] => true
  | (k, _) :: rest => decide (lo ≤ k) && Memory.risingFrom (k + 1) rest

/-- The canonical form: indices strictly rising. (An unlisted place reads as "not written", which no entry equals.) -/
def Memory.wf (m : Memory) : Bool := Memory.risingFrom 0 m

/-- Every listed index lies below the size of the space. -/
def Memory.within (size : Nat) (m : Memory) : Bool := m.all (fun cell => decide (cell.1 < size))

/-- The word at an index of a space: what was written there, else the free value of the place (log 13). -/
def Memory.read (sp : Space) (m : Memory) (a : Nat) : Word :=
  match Memory.get m a with
  | some v => v
  | none => Config.unwritten sp a

/-! ## The three spaces -/

/-- The linear index of a bank word, `b × C + o` (R50). -/
def bankAddr (b : BankIdx) (o : Nat) : Nat := b.toNat * Config.bankCapacity + o

/-- The words of BANK space (R46). -/
def bankSpaceSize : Nat := Config.numBanks * Config.bankCapacity

/-- `bank[b][o]` (R25). -/
def State.bankWord (s : State) (b : BankIdx) (o : Nat) : Word := Memory.read .bank s.bank (bankAddr b o)

/-- `staging[a]` (R26). -/
def State.stagingWord (s : State) (a : Nat) : Word := Memory.read .staging s.staging a

/-- `mailbox[i]` (R27). -/
def State.mailboxWord (s : State) (i : Nat) : Word := Memory.read .mailbox s.mailbox i

/-- The state with `bank[b][o]` written. -/
def putBank (b : BankIdx) (o : Nat) (v : Word) (s : State) : State :=
  { s with bank := Memory.put s.bank (bankAddr b o) v }

/-- The state with `staging[a]` written. -/
def putStaging (a : Nat) (v : Word) (s : State) : State := { s with staging := Memory.put s.staging a v }

/-- The state with `mailbox[i]` written. -/
def putMailbox (i : Nat) (v : Word) (s : State) : State := { s with mailbox := Memory.put s.mailbox i v }

/-- `BankRead(b, o)` (R47). -/
def bankRead (b : BankIdx) (o : Nat) (s : State) : Except Fault Word :=
  if o < Config.bankCapacity then .ok (s.bankWord b o) else .error (.bankIndex b o)

/-- `BankWrite(b, o, v)` (R47). -/
def bankWrite (b : BankIdx) (o : Nat) (v : Word) (s : State) : Except Fault State :=
  if o < Config.bankCapacity then .ok (putBank b o v s) else .error (.bankIndex b o)

/-- `StagRead(a)` (R48). -/
def stagRead (a : Nat) (s : State) : Except Fault Word :=
  if a < s.cfg.stagingCapacity then .ok (s.stagingWord a) else .error (.stagingIndex a)

/-- `StagWrite(a, v)` (R48). -/
def stagWrite (a : Nat) (v : Word) (s : State) : Except Fault State :=
  if a < s.cfg.stagingCapacity then .ok (putStaging a v s) else .error (.stagingIndex a)

/-- `MboxRead(i)` (R49). -/
def mboxRead (i : Nat) (s : State) : Except Fault Word :=
  if i < s.cfg.mailboxCapacity then .ok (s.mailboxWord i) else .error (.mailboxIndex i)

/-- `MboxWrite(i, v)` (R49). -/
def mboxWrite (i : Nat) (v : Word) (s : State) : Except Fault State :=
  if i < s.cfg.mailboxCapacity then .ok (putMailbox i v s) else .error (.mailboxIndex i)

/-- Successive `BankWrite`s of a list of words from an offset upward (R91's loop). -/
def bankWriteRun (b : BankIdx) (o : Nat) (ws : List Word) (s : State) : Except Fault State :=
  match ws with
  | [] => .ok s
  | w :: rest =>
    match bankWrite b o w s with
    | .error e => .error e
    | .ok t => bankWriteRun b (o + 1) rest t

/-- Successive `MboxWrite`s of a list of words from an index upward (R121's loop). -/
def mboxWriteRun (i : Nat) (ws : List Word) (s : State) : Except Fault State :=
  match ws with
  | [] => .ok s
  | w :: rest =>
    match mboxWrite i w s with
    | .error e => .error e
    | .ok t => mboxWriteRun (i + 1) rest t

/-- `n` successive `StagRead`s from an index upward (R99's list). -/
def stagReadRun (a n : Nat) (s : State) : Except Fault (List Word) :=
  match n with
  | 0 => .ok []
  | k + 1 =>
    match stagRead a s with
    | .error e => .error e
    | .ok w =>
      match stagReadRun (a + 1) k s with
      | .error e => .error e
      | .ok ws => .ok (w :: ws)

/-! ## BankStore -/

/-- `header_of(b)` (R86): `BankRead(b, 0)`. -/
def State.headerOf (s : State) (b : BankIdx) : Word := s.bankWord b 0

/-- `is_full(b)` (R87). -/
def State.isFull (s : State) (b : BankIdx) : Bool := decide (s.headerOf b ≠ 0#32)

/-- `read_payload_word(b, k)` (R89). -/
def readPayloadWord (b : BankIdx) (k : Nat) (s : State) : Except Fault Word := bankRead b k s

/-- `read_footer(b)` (R90). -/
def readFooter (b : BankIdx) (s : State) : Except Fault Word := bankRead b s.cfg.footerOffset s

/-- `clear_header(b)` (R93). -/
def clearHeader (b : BankIdx) (s : State) : State := putBank b 0 0#32 s

/-- `clear_header` of the banks `0 .. n − 1` in order (R133's loop). -/
def clearHeaders (n : Nat) (s : State) : State :=
  match n with
  | 0 => s
  | k + 1 => clearHeader (BitVec.ofNat 4 k) (clearHeaders k s)

/-- The cursor successor `next(b) = (b + 1) mod 16` (R95). -/
def nextBank (b : BankIdx) : BankIdx := b + 1#4

/-! ## The event history -/

/-- A write of `spill_state`; one that changes its value is entered in the history (R33). -/
def setSpill (new : SpillState) (s : State) : State :=
  if s.spillState = new then s
  else { s with spillState := new, history := .transition s.spillState new :: s.history }

/-- Enter a step that has been taken in the history (R33; log 21). -/
def record (e : Event) (s : State) : State := { s with history := .step e :: s.history }

/-! ## Detected conditions -/

/-- The three conditions the block detects (R153). -/
inductive Condition where
  | stagingOverflow
  | bankCount
  | idMismatch
  deriving DecidableEq, Repr

/-- TAKING a detected condition: its sticky flag and its entry action (R154 to R156). The two fatal ones stop the
ingest sequencer; nothing is saved, no counter moves, `spill_state` is not touched (R158, R159). -/
def raise (c : Condition) (s : State) : State :=
  match c with
  | .stagingOverflow => { s with fltStagingOvf := true, phase := .halt }
  | .bankCount => { s with fltBankCount := true, phase := .halt }
  | .idMismatch => { s with fltIdMismatch := true }

/-- LEAVING the halt: there is no return operation; a new spill puts the sequencer back to SCAN (R159, R133). -/
def resumeIngest (s : State) : State := { s with phase := .scan }

/-! ## The staging cursor controller -/

/-- `reset()` (R97). -/
def resetCursors (s : State) : State := { s with wr := 0, rd := 0, occupied := 0 }

/-- `push(w)` (R98). -/
def pushWord (w : Word) (s : State) : State :=
  if s.wr < s.cfg.stagingCapacity then
    { putStaging s.wr w s with wr := s.wr + 1, occupied := s.occupied + 1 }
  else raise .stagingOverflow s

/-- `push(w)` followed by the rest of its step; a push that overflows ends the step with its entry action
(unreachable from the ingest steps, R98; log 20). -/
def pushThen (w : Word) (rest : State → State) (s : State) : State :=
  if s.wr < s.cfg.stagingCapacity then rest (pushWord w s) else pushWord w s

/-- The number of words `pop_batch(maxWords)` moves: `min(maxWords, occupied)` (R99). -/
def batchSize (maxWords : Nat) (s : State) : Nat := min maxWords s.occupied

/-- `pop_batch(maxWords)` (R99): the words, and the state with the read cursor advanced. -/
def popBatch (maxWords : Nat) (s : State) : Except Fault (List Word × State) :=
  match stagReadRun s.rd (batchSize maxWords s) s with
  | .error e => .error e
  | .ok words =>
    .ok (words, { s with rd := s.rd + batchSize maxWords s, occupied := s.occupied - batchSize maxWords s })

/-! ## Synchronizer and indicators -/

/-- `read_level()` (R149): `true` is high. -/
def State.readLevel (s : State) : Bool := s.lineLevel

/-- `acknowledge()` (R150). -/
def acknowledge (s : State) : State := { s with edgeLatch := false }

/-- `set(index)` (R140). -/
def indicatorSet (i : Fin 2) (s : State) : State :=
  if i = 0 then { s with ind0 := true } else { s with ind1 := true }

/-- `clear(index)` (R140). -/
def indicatorClear (i : Fin 2) (s : State) : State :=
  if i = 0 then { s with ind0 := false } else { s with ind1 := false }

end Sys2Proof.Machine
end

