-- ==== Sys2Proof/Machine/Flags.lean ====
section
/-! DEFINITION. Status codes and outputs: the codes of `spill_state` and `phase` (rules R14, R16), the fault vector
`flt[2:0]` (R153), the indicator patterns (R139) and the output signals (R39, R167). -/

namespace Sys2Proof.Machine

/-- The 2-bit code of `spill_state` (R14). -/
def spillCode (x : SpillState) : BitVec 2 :=
  match x with
  | .ready => 0b00#2
  | .beamOn => 0b01#2
  | .beamOff => 0b10#2

/-- The 3-bit code of `phase` (R16). -/
def phaseCode (x : Phase) : BitVec 3 :=
  match x with
  | .scan => 0#3
  | .check => 1#3
  | .pushHdr => 2#3
  | .pushPay => 3#3
  | .pushFtr => 4#3
  | .clear => 5#3
  | .halt => 6#3

/-- A condition's code, its bit in `flt[2:0]` (R153). -/
def Condition.code (c : Condition) : Nat :=
  match c with
  | .stagingOverflow => 0
  | .bankCount => 1
  | .idMismatch => 2

/-- A condition's flag (R153). -/
def State.flag (s : State) (c : Condition) : Bool :=
  match c with
  | .stagingOverflow => s.fltStagingOvf
  | .bankCount => s.fltBankCount
  | .idMismatch => s.fltIdMismatch

/-- The fault vector `flt[2:0]`, each flag at its code's bit (R153). -/
def State.flt (s : State) : BitVec 3 :=
  BitVec.ofBool s.fltIdMismatch ++ BitVec.ofBool s.fltBankCount ++ BitVec.ofBool s.fltStagingOvf

/-- Entering BEAM_ON: indicator 0 set, indicator 1 clear (R139). -/
def showBeamOn (s : State) : State := indicatorClear 1 (indicatorSet 0 s)

/-- Entering BEAM_OFF: `clear(0); set(1)` (R139, R140). -/
def showBeamOff (s : State) : State := indicatorSet 1 (indicatorClear 0 s)

/-- Fully drained: both set (R139). -/
def showDrained (s : State) : State := indicatorSet 1 (indicatorSet 0 s)

/-- The output signals of the block (R39, R167). -/
structure Outputs where
  spillState : BitVec 2
  ind0 : Bool
  ind1 : Bool
  edgeLatch : Bool
  occupied : Nat
  bankCursor : BankIdx
  fltStagingOvf : Bool
  fltBankCount : Bool
  fltIdMismatch : Bool
  deriving DecidableEq, Repr

/-- What the outputs show in a state: the status elements are continuously readable (R38, R39). -/
def State.outputs (s : State) : Outputs where
  spillState := spillCode s.spillState
  ind0 := s.ind0
  ind1 := s.ind1
  edgeLatch := s.edgeLatch
  occupied := s.occupied
  bankCursor := s.bankCursor
  fltStagingOvf := s.fltStagingOvf
  fltBankCount := s.fltBankCount
  fltIdMismatch := s.fltIdMismatch

end Sys2Proof.Machine
end

