-- ==== Sys2Proof/Machine/Operands.lean ====
section
/-! DEFINITION. The fields the engine takes out of data words (rules R7, R69, R88) and the conditions CHECK tests on
them (R70, R107). -/

namespace Sys2Proof.Machine

/-- The width of the count field, and so of `cnt_reg` and `pay_idx` (R19, R20). -/
def countWidth (p : Params) : Nat := p.cntHi - p.cntLo + 1

/-- `word_count(h) = h[CNT_HI:CNT_LO]` (R69, R88). -/
def wordCount (p : Params) (h : Word) : Nat := (h.extractLsb' p.cntLo (countWidth p)).toNat

/-- The entry of a graph for a pair of words. -/
def lookupId (table : List (Word × Word × BankIdx)) (h f : Word) : Option BankIdx :=
  match table with
  | [] => none
  | (h', f', id) :: rest => if h' = h ∧ f' = f then some id else lookupId rest h f

/-- `BANK_ID_OF(h, f)` (R7). -/
def bankIdOf (p : Params) (h f : Word) : Option BankIdx := lookupId p.bankIds h f

/-- The cause of ID_MISMATCH (R156): an embedded identifier that is not the cursor's bank. -/
def idMismatch (p : Params) (cursor : BankIdx) (h f : Word) : Bool :=
  match bankIdOf p h f with
  | some id => decide (id ≠ cursor)
  | none => false

/-- The cause of BANK_COUNT (R155): a count of 0, or above the bank's capacity. -/
def badCount (n : Nat) : Bool := decide (n = 0) || decide (Config.bankCapacity < n)

/-- The cause of STAGING_OVERFLOW (R154): the record's `n + 1` words do not fit above the write cursor. -/
def overflows (n : Nat) (s : State) : Bool := decide (s.cfg.stagingCapacity < s.wr + n + 1)

end Sys2Proof.Machine
end

