-- ==== Sys2Proof/Machine/Schedule.lean ====
section
/-! DEFINITION. Which steps are enabled (rules R77, R79, R80) and how a step is taken: "a step whose guard is false
has no effect and cannot fire" (R9). -/

namespace Sys2Proof.Machine

/-- The polling agent's one enabled step, by the dispatch table of R79. -/
def pollingStep (s : State) : Instr :=
  match s.phase with
  | .scan =>
    match s.spillState with
    | .beamOn => .scan
    | .ready => if s.startEn then .beginSpill else .idle
    | .beamOff => .idle
  | .check => .check
  | .pushHdr => .pushHdr
  | .pushPay => .pushPay
  | .pushFtr => .pushFtr
  | .clear => .clear
  | .halt =>
    match s.spillState with
    | .ready => if s.startEn then .beginSpill else .idle
    | .beamOn => .idle
    | .beamOff => .idle

/-- The guard of each step, as its own rule gives it (R91, R106 to R112, R121, R127, R133, R134, R144, R145, R176);
a FILL whose header word is zero has no move (R91, R180). A primitive has no guard. -/
def enabled (i : Instr) (s : State) : Bool :=
  match i with
  | .reset => true
  | .fill b h _ _ => decide (s.headerOf b = 0#32) && decide (h ≠ 0#32)
  | .lineRise => !s.lineLevel
  | .lineFall => s.lineLevel
  | .setStart _ => true
  | .mboxRead _ => true
  | .scan => decide (s.phase = .scan) && decide (s.spillState = .beamOn)
  | .check => decide (s.phase = .check)
  | .pushHdr => decide (s.phase = .pushHdr)
  | .pushPay => decide (s.phase = .pushPay)
  | .pushFtr => decide (s.phase = .pushFtr)
  | .clear => decide (s.phase = .clear)
  | .beginSpill =>
    decide (s.spillState = .ready) && (decide (s.phase = .scan) || decide (s.phase = .halt)) && s.startEn
  | .idle =>
    (decide (s.phase = .scan) &&
      (decide (s.spillState = .beamOff) || (decide (s.spillState = .ready) && !s.startEn))) ||
    (decide (s.phase = .halt) && !(decide (s.spillState = .ready) && s.startEn))
  | .drain => s.edgeLatch
  | .headerOf _ => true
  | .isFull _ => true
  | .wordCount _ => true
  | .readPayloadWord _ _ => true
  | .readFooter _ => true
  | .clearHeader _ => true
  | .stagingReset => true
  | .push _ => true
  | .popBatch _ => true
  | .occupied => true
  | .readLevel => true
  | .acknowledge => true
  | .indicatorSet _ => true
  | .indicatorClear _ => true
  | .diagnosticWrite => true

/-- Take a step whose effect cannot fail: where its guard holds, its effect and its entry in the history; else
nothing (R9; log 7). -/
def takeStep (i : Instr) (effect : State → State) (s : State) : Host.Outcome State Fault Refusal :=
  if enabled i s then .next (record (encode i) (effect s)) else .next s

/-- Take a step whose accesses could leave their space (R47 to R49). -/
def tryStep (i : Instr) (effect : State → Except Fault State) (s : State) : Host.Outcome State Fault Refusal :=
  if enabled i s then
    match effect s with
    | .ok t => .next (record (encode i) t)
    | .error e => .fault e
  else .next s

/-- A primitive that returns a value and writes nothing (log 12). -/
def answer (r : Ret) (s : State) : Host.Outcome State Fault Refusal := .next { s with ret := r }

/-- A primitive that reads one word (log 12). -/
def answerWord (r : Except Fault Word) (s : State) : Host.Outcome State Fault Refusal :=
  match r with
  | .ok w => answer (.word w) s
  | .error e => .fault e

end Sys2Proof.Machine
end

