-- ==== Sys2Proof/Machine/BankStore.lean ====
section
/-! DEFINITION. BankStore (40_bankstore.md): the six primitives and the front end's step FILL. -/

namespace Sys2Proof.Machine

/-- What FILL writes (R91): payload from offset 1 upward, then the footer, then the header. -/
def fillBank (b : BankIdx) (h : Word) (p : List Word) (f : Word) (s : State) : Except Fault State :=
  match bankWriteRun b 1 p s with
  | .error e => .error e
  | .ok t =>
    match bankWrite b s.cfg.footerOffset f t with
    | .error e => .error e
    | .ok u => bankWrite b 0 h u

/-- FILL (R91). -/
def execFill (b : BankIdx) (h : Word) (p : List Word) (f : Word) (s : State) :
    Host.Outcome State Fault Refusal :=
  tryStep (.fill b h p f) (fillBank b h p f) s

/-- `header_of(b)` (R86). -/
def execHeaderOf (b : BankIdx) (s : State) : Host.Outcome State Fault Refusal := answer (.word (s.headerOf b)) s

/-- `is_full(b)` (R87). -/
def execIsFull (b : BankIdx) (s : State) : Host.Outcome State Fault Refusal := answer (.bool (s.isFull b)) s

/-- `word_count(h)` (R88). -/
def execWordCount (h : Word) (s : State) : Host.Outcome State Fault Refusal := answer (.int (wordCount s.cfg h)) s

/-- `read_payload_word(b, k)` (R89). -/
def execReadPayloadWord (b : BankIdx) (k : Nat) (s : State) : Host.Outcome State Fault Refusal :=
  answerWord (readPayloadWord b k s) s

/-- `read_footer(b)` (R90). -/
def execReadFooter (b : BankIdx) (s : State) : Host.Outcome State Fault Refusal := answerWord (readFooter b s) s

/-- `clear_header(b)` (R93). -/
def execClearHeader (b : BankIdx) (s : State) : Host.Outcome State Fault Refusal := .next (clearHeader b s)

end Sys2Proof.Machine
end

