-- ==== Sys2Proof/Machine/Control.lean ====
section
/-! DEFINITION. RESET (70_reset_and_hazards.md, rule R176) and the diagnostic write (R153). -/

namespace Sys2Proof.Machine

/-- The record registers lose their values (R176): free values, inside the registers' widths (V2; log 15). -/
def loseRecord (s : State) : State :=
  { s with
    hdrReg := Config.freeHdr s.tick
    ftrReg := Config.freeFtr s.tick
    cntReg := Config.freeCnt s.tick % 2 ^ countWidth s.cfg
    payIdx := Config.freePay s.tick % 2 ^ countWidth s.cfg
    tick := s.tick + 1 }

/-- What RESET does: the table of R40. The inputs stand as they are (R28, R146; log 17), no memory word is written. -/
def resetBlock (s : State) : State :=
  let t := loseRecord (setSpill .ready s)
  { t with
    phase := .scan
    bankCursor := 0#4
    wr := 0
    rd := 0
    occupied := 0
    edgeLatch := false
    ind0 := true
    ind1 := false
    fltStagingOvf := false
    fltBankCount := false
    fltIdMismatch := false }

/-- RESET (R176). -/
def execReset (s : State) : Host.Outcome State Fault Refusal := takeStep .reset resetBlock s

/-- The formatted diagnostic write: "a no-op with no state and no result" (R153). -/
def execDiagnosticWrite (s : State) : Host.Outcome State Fault Refusal := .next s

end Sys2Proof.Machine
end

