-- ==== Sys2Proof/Machine/Drain.lean ====
section
/-! DEFINITION. Drain (43_drain.md): the handler agent's step DRAIN and the consumer's step MBOX_READ. -/

namespace Sys2Proof.Machine

/-- The first drain of a spill (R121, R123). -/
def firstDrain (s : State) : State :=
  if s.spillState = .beamOn then showBeamOff { setSpill .beamOff s with rd := 0 } else s

/-- The end of a spill's drain (R121, R124). -/
def endOfDrain (s : State) : State :=
  if s.occupied = 0 then showDrained (setSpill .ready s) else s

/-- Move one batch into the mailbox (R121, R122): the count word, then the words popped. -/
def moveBatch (s : State) : Except Fault State :=
  match mboxWrite 0 (BitVec.ofNat 32 (batchSize (s.cfg.mailboxCapacity - 1) s)) s with
  | .error e => .error e
  | .ok t =>
    match popBatch (s.cfg.mailboxCapacity - 1) t with
    | .error e => .error e
    | .ok (words, u) => mboxWriteRun 1 words u

/-- What DRAIN does (R121). -/
def drainBatch (s : State) : Except Fault State :=
  if s.readLevel then
    match moveBatch (firstDrain s) with
    | .error e => .error e
    | .ok t => .ok (acknowledge (endOfDrain t))
  else .ok (acknowledge s)

/-- DRAIN (R121). -/
def execDrain (s : State) : Host.Outcome State Fault Refusal := tryStep .drain drainBatch s

/-- MBOX_READ (R127): the word goes to the consumer; no state of the block changes. -/
def consumerRead (i : Nat) (s : State) : Except Fault State :=
  match mboxRead i s with
  | .error e => .error e
  | .ok w => .ok { s with ret := .word w }

/-- MBOX_READ (R127). -/
def execMboxRead (i : Nat) (s : State) : Host.Outcome State Fault Refusal :=
  tryStep (.mboxRead i) (consumerRead i) s

end Sys2Proof.Machine
end

