-- ==== Sys2Proof/Machine/Ingest.lean ====
section
/-! DEFINITION. Ingest (42_ingest.md): the bank round-robin arbiter and the framing parser, one definition per
polling-agent step but BEGIN_SPILL. -/

namespace Sys2Proof.Machine

/-- Examine one bank (R106). -/
def scanBank (s : State) : State :=
  if s.headerOf s.bankCursor = 0#32 then { s with bankCursor := nextBank s.bankCursor }
  else { s with hdrReg := s.headerOf s.bankCursor, phase := .check }

/-- SCAN (R106). -/
def execScan (s : State) : Host.Outcome State Fault Refusal := takeStep .scan scanBank s

/-- Latch the count and the footer of the record in flight (R107's first writes). -/
def latchRecord (n : Nat) (f : Word) (s : State) : State := { s with cntReg := n, ftrReg := f }

/-- ID_MISMATCH, raised without leaving CHECK (R107, R156). -/
def checkId (f : Word) (s : State) : State :=
  if idMismatch s.cfg s.bankCursor s.hdrReg f then raise .idMismatch s else s

/-- The two fatal tests in their order, else on to PUSH_HDR (R107, R161). -/
def checkFit (n : Nat) (s : State) : State :=
  if badCount n then raise .bankCount s
  else if overflows n s then raise .stagingOverflow s
  else { s with phase := .pushHdr }

/-- What CHECK does (R107). -/
def checkRecord (s : State) : Except Fault State :=
  match readFooter s.bankCursor s with
  | .error e => .error e
  | .ok f =>
    let n := wordCount s.cfg s.hdrReg
    .ok (checkFit n (checkId f (latchRecord n f s)))

/-- CHECK (R107). -/
def execCheck (s : State) : Host.Outcome State Fault Refusal := tryStep .check checkRecord s

/-- After the header's push (R108): the payload index, and where the sequencer goes. -/
def afterHeader (s : State) : State :=
  { s with payIdx := 1, phase := if s.cntReg = 1 then .pushFtr else .pushPay }

/-- PUSH_HDR (R108). -/
def execPushHdr (s : State) : Host.Outcome State Fault Refusal :=
  takeStep .pushHdr (fun t => pushThen t.hdrReg afterHeader t) s

/-- After a payload word's push (R109): on to the footer after the last word, else to the next word. -/
def afterPayload (s : State) : State :=
  if s.payIdx + 1 = s.cntReg then { s with phase := .pushFtr } else { s with payIdx := s.payIdx + 1 }

/-- What PUSH_PAY does (R109). -/
def pushPayload (s : State) : Except Fault State :=
  match readPayloadWord s.bankCursor s.payIdx s with
  | .error e => .error e
  | .ok w => .ok (pushThen w afterPayload s)

/-- PUSH_PAY (R109). -/
def execPushPay (s : State) : Host.Outcome State Fault Refusal := tryStep .pushPay pushPayload s

/-- After the footer's push (R110). -/
def afterFooter (s : State) : State := { s with phase := .clear }

/-- PUSH_FTR (R110). -/
def execPushFtr (s : State) : Host.Outcome State Fault Refusal :=
  takeStep .pushFtr (fun t => pushThen t.ftrReg afterFooter t) s

/-- Free the bank and advance (R111). -/
def freeBank (s : State) : State :=
  { clearHeader s.bankCursor s with bankCursor := nextBank s.bankCursor, phase := .scan }

/-- CLEAR (R111). -/
def execClear (s : State) : Host.Outcome State Fault Refusal := takeStep .clear freeBank s

/-- IDLE (R112): the state is unchanged. -/
def execIdle (s : State) : Host.Outcome State Fault Refusal := takeStep .idle (fun t => t) s

end Sys2Proof.Machine
end

