-- ==== Sys2Proof/Machine/Spill.lean ====
section
/-! DEFINITION. The spill state machine's own steps and the indicator primitives (44_spill_fsm.md). -/

namespace Sys2Proof.Machine

/-- What BEGIN_SPILL does, one atomic initialisation (R133). -/
def beginSpill (s : State) : State :=
  let t := resetCursors { clearHeaders Config.numBanks s with bankCursor := 0#4 }
  setSpill .beamOn (showBeamOn (resumeIngest t))

/-- BEGIN_SPILL (R133). -/
def execBeginSpill (s : State) : Host.Outcome State Fault Refusal := takeStep .beginSpill beginSpill s

/-- SET_START (R134). -/
def execSetStart (v : Bool) (s : State) : Host.Outcome State Fault Refusal :=
  takeStep (.setStart v) (fun t => { t with startEn := v }) s

/-- `set(index)` (R140). -/
def execIndicatorSet (i : Fin 2) (s : State) : Host.Outcome State Fault Refusal := .next (indicatorSet i s)

/-- `clear(index)` (R140). -/
def execIndicatorClear (i : Fin 2) (s : State) : Host.Outcome State Fault Refusal := .next (indicatorClear i s)

end Sys2Proof.Machine
end

