-- ==== Sys2Proof/Machine/Staging.lean ====
section
/-! DEFINITION. The staging buffer's four primitives as calls of their own (41_staging.md). -/

namespace Sys2Proof.Machine

/-- `reset()` (R97). -/
def execStagingReset (s : State) : Host.Outcome State Fault Refusal := .next (resetCursors s)

/-- `push(word)` (R98). -/
def execPush (w : Word) (s : State) : Host.Outcome State Fault Refusal := .next (pushWord w s)

/-- `pop_batch(maxWords)` (R99): returns the count and the words. -/
def execPopBatch (maxWords : Nat) (s : State) : Host.Outcome State Fault Refusal :=
  match popBatch maxWords s with
  | .ok (words, t) => answer (.batch (batchSize maxWords s) words) t
  | .error e => .fault e

/-- `occupied()` (R100). -/
def execOccupied (s : State) : Host.Outcome State Fault Refusal := answer (.int s.occupied) s

end Sys2Proof.Machine
end

