-- ==== Sys2Proof/Machine/Sync.lean ====
section
/-! DEFINITION. The beam-on/beam-off synchronizer (45_edge_sync.md): the edge line's steps and its two primitives. -/

namespace Sys2Proof.Machine

/-- LINE_RISE (R144). -/
def execLineRise (s : State) : Host.Outcome State Fault Refusal :=
  takeStep .lineRise (fun t => { t with lineLevel := true, edgeLatch := true }) s

/-- The line falls (R145); with `EDGE_BOTH` the latch is set too. -/
def lowerLine (s : State) : State :=
  { s with lineLevel := false, edgeLatch := if s.cfg.edgeBoth then true else s.edgeLatch }

/-- LINE_FALL (R145). -/
def execLineFall (s : State) : Host.Outcome State Fault Refusal := takeStep .lineFall lowerLine s

/-- `read_level()` (R149). -/
def execReadLevel (s : State) : Host.Outcome State Fault Refusal := answer (.level s.readLevel) s

/-- `acknowledge()` (R150). -/
def execAcknowledge (s : State) : Host.Outcome State Fault Refusal := .next (acknowledge s)

end Sys2Proof.Machine
end

