-- ==== Sys2Proof/Machine/Dispatch.lean ====
section
/-! DEFINITION. exec: one arm per row of the opcode table. -/

namespace Sys2Proof.Machine

def exec (i : Instr) (s : State) : Host.Outcome State Fault Refusal :=
  match i with
  | .reset => Sys2Proof.Machine.execReset s
  | .fill b h p f => Sys2Proof.Machine.execFill b h p f s
  | .lineRise => Sys2Proof.Machine.execLineRise s
  | .lineFall => Sys2Proof.Machine.execLineFall s
  | .setStart v => Sys2Proof.Machine.execSetStart v s
  | .mboxRead k => Sys2Proof.Machine.execMboxRead k s
  | .scan => Sys2Proof.Machine.execScan s
  | .check => Sys2Proof.Machine.execCheck s
  | .pushHdr => Sys2Proof.Machine.execPushHdr s
  | .pushPay => Sys2Proof.Machine.execPushPay s
  | .pushFtr => Sys2Proof.Machine.execPushFtr s
  | .clear => Sys2Proof.Machine.execClear s
  | .beginSpill => Sys2Proof.Machine.execBeginSpill s
  | .idle => Sys2Proof.Machine.execIdle s
  | .drain => Sys2Proof.Machine.execDrain s
  | .headerOf b => Sys2Proof.Machine.execHeaderOf b s
  | .isFull b => Sys2Proof.Machine.execIsFull b s
  | .wordCount h => Sys2Proof.Machine.execWordCount h s
  | .readPayloadWord b k => Sys2Proof.Machine.execReadPayloadWord b k s
  | .readFooter b => Sys2Proof.Machine.execReadFooter b s
  | .clearHeader b => Sys2Proof.Machine.execClearHeader b s
  | .stagingReset => Sys2Proof.Machine.execStagingReset s
  | .push w => Sys2Proof.Machine.execPush w s
  | .popBatch m => Sys2Proof.Machine.execPopBatch m s
  | .occupied => Sys2Proof.Machine.execOccupied s
  | .readLevel => Sys2Proof.Machine.execReadLevel s
  | .acknowledge => Sys2Proof.Machine.execAcknowledge s
  | .indicatorSet k => Sys2Proof.Machine.execIndicatorSet k s
  | .indicatorClear k => Sys2Proof.Machine.execIndicatorClear k s
  | .diagnosticWrite => Sys2Proof.Machine.execDiagnosticWrite s

end Sys2Proof.Machine
end

