-- ==== Sys2Proof/Machine/Fetch.lean ====
section
/-! DEFINITION. Which step comes next (rules R55, R79, R80; log 5, log 6): the script's first event, and with no script
left the two core agents by themselves. -/

namespace Sys2Proof.Machine

/-- How many polling steps still come before DRAIN: what is left of the number drawn, or a fresh free value (log 6). -/
def patience (s : State) : Nat := s.wait.getD (Config.drainDelay s.tick)

/-- With no script left the environment is silent (R60); where DRAIN and a polling step are both enabled, DRAIN goes after
finitely many polling steps, a free number of them (R55, R60; log 6). -/
def coreChoice (s : State) : Instr := if s.edgeLatch && patience s == 0 then .drain else pollingStep s

/-- What DRAIN's wait becomes when a core agent moves: one less while an edge stays latched; else it is drawn anew. -/
def nextWait (s : State) : Option Nat :=
  if s.edgeLatch then
    match patience s with
    | 0 => none
    | k + 1 => some k
  else none

/-- The state a core agent's own move runs in: the counter of free values moved on and the wait counted down. -/
def turn (s : State) : State := { s with tick := s.tick + 1, wait := nextWait s }

/-- The next instruction, and the state it runs in: the script without its first event, or a core agent's own turn. -/
def fetch (s : State) : Except Reject (Instr × State) :=
  match s.script with
  | [] => .ok (coreChoice s, turn s)
  | e :: rest =>
    match decode e with
    | .ok i => .ok (i, { s with script := rest })
    | .error r => .error r

/-- The state in which a step's guard holds and nothing else is changed: the selection by which this block comes to run
that step (R77, R79; log 24). -/
def select (i : Instr) (s : State) : State :=
  match i with
  | .fill b _ _ _ => clearHeader b s
  | .lineRise => { s with lineLevel := false }
  | .lineFall => { s with lineLevel := true }
  | .scan => { s with phase := .scan, spillState := .beamOn }
  | .check => { s with phase := .check }
  | .pushHdr => { s with phase := .pushHdr }
  | .pushPay => { s with phase := .pushPay }
  | .pushFtr => { s with phase := .pushFtr }
  | .clear => { s with phase := .clear }
  | .beginSpill => { s with phase := .scan, spillState := .ready, startEn := true }
  | .idle => { s with phase := .scan, spillState := .ready, startEn := false }
  | .drain => { s with edgeLatch := true }
  | .reset | .setStart _ | .mboxRead _ => s
  | .headerOf _ | .isFull _ | .wordCount _ | .readPayloadWord _ _ | .readFooter _ | .clearHeader _ => s
  | .stagingReset | .push _ | .popBatch _ | .occupied | .readLevel | .acknowledge => s
  | .indicatorSet _ | .indicatorClear _ | .diagnosticWrite => s

/-- The event put first in the script, and its step selected (log 24). -/
def placeEvent (e : Event) (s : State) : State :=
  match decode e with
  | .ok i => { select i s with script := e :: s.script }
  | .error _ => { s with script := e :: s.script }

end Sys2Proof.Machine
end

