-- ==== Sys2Proof/Machine/Step.lean ====
section
/-! DEFINITION. step: one atomic transition of the whole state (rule R55). -/

namespace Sys2Proof.Machine

/-- One step: the next instruction (log 5, log 6) executed; an invalid event word is refused by name (R81; log 8). -/
def step (s : State) : Host.Outcome State Fault Refusal :=
  match fetch s with
  | .ok (i, t) => exec i t
  | .error r => .refused (.invalidEvent r)

/-- The state in which the very next step runs the instruction in the low `nbits` bits of `w` (log 24). -/
def State.withFetchWord (s : State) (nbits w : Nat) : State := placeEvent (eventOfBits (w % 2 ^ nbits)) s

end Sys2Proof.Machine
end

