-- ==== Sys2Proof/Machine/Script.lean ====
section
/-! DEFINITION. The stimulus-script notation (rule R83) and its pseudo-operations (R84) as functions. -/

namespace Sys2Proof.Machine

/-- The mnemonic of an instruction, as the opcode table and R77, R78 spell it. -/
def mnemonic (i : Instr) : String :=
  match i with
  | .reset => "RESET"
  | .fill _ _ _ _ => "FILL"
  | .lineRise => "LINE_RISE"
  | .lineFall => "LINE_FALL"
  | .setStart _ => "SET_START"
  | .mboxRead _ => "MBOX_READ"
  | .scan => "SCAN"
  | .check => "CHECK"
  | .pushHdr => "PUSH_HDR"
  | .pushPay => "PUSH_PAY"
  | .pushFtr => "PUSH_FTR"
  | .clear => "CLEAR"
  | .beginSpill => "BEGIN_SPILL"
  | .idle => "IDLE"
  | .drain => "DRAIN"
  | .headerOf _ => "header_of"
  | .isFull _ => "is_full"
  | .wordCount _ => "word_count"
  | .readPayloadWord _ _ => "read_payload_word"
  | .readFooter _ => "read_footer"
  | .clearHeader _ => "clear_header"
  | .stagingReset => "staging_reset"
  | .push _ => "push"
  | .popBatch _ => "pop_batch"
  | .occupied => "occupied"
  | .readLevel => "read_level"
  | .acknowledge => "acknowledge"
  | .indicatorSet _ => "indicator_set"
  | .indicatorClear _ => "indicator_clear"
  | .diagnosticWrite => "diagnostic_write"

/-- The events of a list of instructions, as a script holds them. -/
def scriptOf (is : List Instr) : List Event := is.map encode

/-- The instructions of a list taken one after the other, stopping where one stops. -/
def runAll (is : List Instr) (s : State) : Host.Outcome State Fault Refusal :=
  match is with
  | [] => .next s
  | i :: rest =>
    match exec i s with
    | .next t => runAll rest t
    | .fault e => .fault e
    | .refused r => .refused r

/-- Whether a script is well-formed from a state: every line's guard is true in the state it meets (R83). -/
def scriptRuns (is : List Instr) (s : State) : Bool :=
  match is with
  | [] => true
  | i :: rest =>
    enabled i s &&
      match exec i s with
      | .next t => scriptRuns rest t
      | .fault _ => false
      | .refused _ => false

/-- `P × k`: `k` times the one polling-agent step that R79 enables (R84). -/
def polls (k : Nat) (s : State) : Host.Outcome State Fault Refusal :=
  match k with
  | 0 => .next s
  | n + 1 =>
    match exec (pollingStep s) s with
    | .next t => polls n t
    | .fault e => .fault e
    | .refused r => .refused r

/-- `INGEST_RECORD` for a record of count `n` (R84). -/
def ingestRecord (n : Nat) : List Instr :=
  [.scan, .check, .pushHdr] ++ List.replicate (n - 1) .pushPay ++ [.pushFtr, .clear]

/-- `SKIP × k` (R84). -/
def skip (k : Nat) : List Instr := List.replicate k .scan

/-- `RISE_AND_DRAIN` (R84). -/
def riseAndDrain : List Instr := [.lineRise, .drain]

/-- `PULSE` (R84): one consumer handshake. -/
def pulse : List Instr := [.lineRise, .drain, .lineFall]

/-- `k` consumer handshakes. -/
def pulses (k : Nat) : List Instr := (List.replicate k pulse).flatten

/-- A record is in flight: its copy has begun and its bank's header has not yet been cleared (R12). -/
def inFlight (s : State) : Bool :=
  match s.phase with
  | .check | .pushHdr | .pushPay | .pushFtr | .clear => true
  | .scan | .halt => false

/-- `TransferEngine.ingest()`: `P` repeated while `spill_state = BEAM_ON` or a record is in flight (R84), at most `fuel`
times (the loop itself may go on for ever, R106). -/
def ingest (fuel : Nat) (s : State) : Host.Outcome State Fault Refusal :=
  match fuel with
  | 0 => .next s
  | n + 1 =>
    if s.spillState = .beamOn ∨ inFlight s then
      match exec (pollingStep s) s with
      | .next t => ingest n t
      | .fault e => .fault e
      | .refused r => .refused r
    else .next s

end Sys2Proof.Machine
end

