-- ==== Sys2Proof/Safety.lean ====
section
/-! DEFINITION. The terms the claims use: the start premises of rule R179, the elements of the state and what each
instruction may write (the "state written" of its rule), the invariants, and the event history's order law. -/

namespace Sys2Proof.Machine

/-! ## Named premises (R179, R196) -/

/-- Quiescent READY (R196). -/
def QuiescentReady (s : State) : Prop :=
  s.spillState = .ready ∧ (s.phase = .scan ∨ s.phase = .halt) ∧ s.edgeLatch = false ∧ s.occupied = 0

/-- No fault recorded (R153). -/
def NoFault (s : State) : Prop :=
  s.fltStagingOvf = false ∧ s.fltBankCount = false ∧ s.fltIdMismatch = false

/-- Clean READY (R179). -/
def CleanReady (s : State) : Prop := QuiescentReady s ∧ s.phase = .scan ∧ NoFault s

/-- Clean spill start (R179). -/
def CleanSpillStart (s : State) : Prop :=
  s.spillState = .beamOn ∧ s.phase = .scan ∧ s.bankCursor = 0#4 ∧ s.wr = 0 ∧ s.rd = 0 ∧ s.occupied = 0 ∧
    (∀ b, s.headerOf b = 0#32) ∧ s.edgeLatch = false ∧ NoFault s

/-! ## Elements of the state and their writers -/

/-- The elements of R13. -/
inductive Elem where
  | spillState | bankCursor | phase | hdrReg | ftrReg | cntReg | payIdx
  | wr | rd | occupied
  | bank | staging | mailbox
  | lineLevel | edgeLatch | startEn | ind0 | ind1
  | fltStagingOvf | fltBankCount | fltIdMismatch
  deriving DecidableEq, Repr

/-- An element reads the same in two states; a memory is compared word by word, through the model's read. -/
def unchanged (e : Elem) (s t : State) : Prop :=
  match e with
  | .spillState => t.spillState = s.spillState
  | .bankCursor => t.bankCursor = s.bankCursor
  | .phase => t.phase = s.phase
  | .hdrReg => t.hdrReg = s.hdrReg
  | .ftrReg => t.ftrReg = s.ftrReg
  | .cntReg => t.cntReg = s.cntReg
  | .payIdx => t.payIdx = s.payIdx
  | .wr => t.wr = s.wr
  | .rd => t.rd = s.rd
  | .occupied => t.occupied = s.occupied
  | .bank => ∀ b o, t.bankWord b o = s.bankWord b o
  | .staging => ∀ a, t.stagingWord a = s.stagingWord a
  | .mailbox => ∀ i, t.mailboxWord i = s.mailboxWord i
  | .lineLevel => t.lineLevel = s.lineLevel
  | .edgeLatch => t.edgeLatch = s.edgeLatch
  | .startEn => t.startEn = s.startEn
  | .ind0 => t.ind0 = s.ind0
  | .ind1 => t.ind1 = s.ind1
  | .fltStagingOvf => t.fltStagingOvf = s.fltStagingOvf
  | .fltBankCount => t.fltBankCount = s.fltBankCount
  | .fltIdMismatch => t.fltIdMismatch = s.fltIdMismatch

/-- Every element outside a list reads the same. -/
def UnchangedBut (es : List Elem) (s t : State) : Prop := ∀ e, e ∉ es → unchanged e s t

/-- The elements an instruction may write: the "state written" of its own rule. A push step also lists what its
overflow branch writes (R98), and each indicator primitive its own indicator (R140). -/
def written (i : Instr) : List Elem :=
  match i with
  | .reset =>
    [.spillState, .phase, .bankCursor, .wr, .rd, .occupied, .edgeLatch, .ind0, .ind1, .fltStagingOvf, .fltBankCount,
      .fltIdMismatch, .hdrReg, .ftrReg, .cntReg, .payIdx]
  | .fill _ _ _ _ => [.bank]
  | .lineRise => [.lineLevel, .edgeLatch]
  | .lineFall => [.lineLevel, .edgeLatch]
  | .setStart _ => [.startEn]
  | .mboxRead _ => []
  | .scan => [.bankCursor, .hdrReg, .phase]
  | .check => [.cntReg, .ftrReg, .phase, .fltStagingOvf, .fltBankCount, .fltIdMismatch]
  | .pushHdr => [.staging, .wr, .occupied, .payIdx, .phase, .fltStagingOvf]
  | .pushPay => [.staging, .wr, .occupied, .payIdx, .phase, .fltStagingOvf]
  | .pushFtr => [.staging, .wr, .occupied, .phase, .fltStagingOvf]
  | .clear => [.bank, .bankCursor, .phase]
  | .beginSpill => [.bank, .bankCursor, .wr, .rd, .occupied, .phase, .ind0, .ind1, .spillState]
  | .idle => []
  | .drain => [.edgeLatch, .mailbox, .rd, .occupied, .spillState, .ind0, .ind1]
  | .headerOf _ => []
  | .isFull _ => []
  | .wordCount _ => []
  | .readPayloadWord _ _ => []
  | .readFooter _ => []
  | .clearHeader _ => [.bank]
  | .stagingReset => [.wr, .rd, .occupied]
  | .push _ => [.staging, .wr, .occupied, .phase, .fltStagingOvf]
  | .popBatch _ => [.rd, .occupied]
  | .occupied => []
  | .readLevel => []
  | .acknowledge => [.edgeLatch]
  | .indicatorSet k => if k = 0 then [.ind0] else [.ind1]
  | .indicatorClear k => if k = 0 then [.ind0] else [.ind1]
  | .diagnosticWrite => []

/-! ## Data in transit -/

/-- The words pushed and not yet drained, oldest first: `staging[rd .. wr − 1]` (R24, R102). -/
def pending (s : State) : List Word := (List.range s.occupied).map (fun k => s.stagingWord (s.rd + k))

/-- The first `n` body words of the mailbox (R73). -/
def frameBody (n : Nat) (s : State) : List Word := (List.range n).map (fun k => s.mailboxWord (1 + k))

/-- The size of the batch a DRAIN moves: `min(M − 1, occupied)` (R122). -/
def drainSize (s : State) : Nat := batchSize (s.cfg.mailboxCapacity - 1) s

/-! ## Invariants -/

/-- The cursor controller's invariant (R24). -/
structure CursorInv (s : State) : Prop where
  rd_le_wr : s.rd ≤ s.wr
  wr_le_S : s.wr ≤ s.cfg.stagingCapacity
  occupied_eq : s.occupied = s.wr - s.rd
  beam_on : s.spillState = .beamOn → s.rd = 0

/-- The three memories are in canonical form and list nothing outside their spaces (R46). -/
structure MemoryInv (s : State) : Prop where
  bank_wf : Memory.wf s.bank = true
  staging_wf : Memory.wf s.staging = true
  mailbox_wf : Memory.wf s.mailbox = true
  bank_within : Memory.within bankSpaceSize s.bank = true
  staging_within : Memory.within s.cfg.stagingCapacity s.staging = true
  mailbox_within : Memory.within s.cfg.mailboxCapacity s.mailbox = true

/-- The phases in which the record's count and footer have been latched. -/
def latched (s : State) : Bool :=
  match s.phase with
  | .pushHdr | .pushPay | .pushFtr | .clear => true
  | .scan | .check | .halt => false

/-- What the sequencer's registers hold while they are meaningful (R17 to R20), and that an accepted record has room in
the staging buffer to its last word (R98, R107). -/
structure RecordInv (s : State) : Prop where
  header : inFlight s = true → s.headerOf s.bankCursor = s.hdrReg ∧ s.hdrReg ≠ 0#32
  count : latched s = true → s.cntReg = wordCount s.cfg s.hdrReg ∧ 1 ≤ s.cntReg ∧ s.cntReg ≤ Config.bankCapacity
  footer : latched s = true → s.ftrReg = s.bankWord s.bankCursor s.cfg.footerOffset
  index : s.phase = .pushPay → 1 ≤ s.payIdx ∧ s.payIdx + 1 ≤ s.cntReg
  width : s.cntReg < 2 ^ countWidth s.cfg ∧ s.payIdx < 2 ^ countWidth s.cfg
  room_header : s.phase = .pushHdr → s.wr + s.cntReg + 1 ≤ s.cfg.stagingCapacity
  room_payload : s.phase = .pushPay → s.wr + (s.cntReg - s.payIdx) + 1 ≤ s.cfg.stagingCapacity
  room_footer : s.phase = .pushFtr → s.wr + 1 ≤ s.cfg.stagingCapacity

/-- No free value is read by the engine: the words awaiting drain have been pushed (R26), and in BEAM_ON every header has
been written (R25). -/
structure WrittenInv (s : State) : Prop where
  staged : ∀ a, s.rd ≤ a → a < s.wr → (Memory.get s.staging a).isSome = true
  headers : s.spillState = .beamOn → ∀ b, (Memory.get s.bank (bankAddr b 0)).isSome = true

/-- An environment operand the state limits: MBOX_READ's index lies in `0..M − 1` (R127). -/
def operandInRange (p : Params) (i : Instr) : Bool :=
  match i with
  | .mboxRead k => decide (k < p.mailboxCapacity)
  | .reset | .fill _ _ _ _ | .lineRise | .lineFall | .setStart _ => true
  | .scan | .check | .pushHdr | .pushPay | .pushFtr | .clear | .beginSpill | .idle | .drain => true
  | .headerOf _ | .isFull _ | .wordCount _ | .readPayloadWord _ _ | .readFooter _ | .clearHeader _ => true
  | .stagingReset | .push _ | .popBatch _ | .occupied | .readLevel | .acknowledge => true
  | .indicatorSet _ | .indicatorClear _ | .diagnosticWrite => true

/-- An event that names a step, with its operand in range. -/
def stepEvent (p : Params) (e : Event) : Bool :=
  match decode e with
  | .ok i => i.isStep && operandInRange p i
  | .error _ => false

/-- The script names steps only, as an execution does (R10, R78). -/
def scriptOfSteps (s : State) : Bool := s.script.all (stepEvent s.cfg)

/-- The invariant of the block's executions. -/
structure Inv (s : State) : Prop where
  params : s.cfg.Valid
  memory : MemoryInv s
  cursors : CursorInv s
  sequencer : RecordInv s
  written : WrittenInv s
  steps : scriptOfSteps s = true

/-! ## Order of the spill states (R136) -/

/-- The `TRANSITION` entries since the last RESET, newest first. -/
def transitionsSinceReset (hist : List HistEntry) : List (SpillState × SpillState) :=
  match hist with
  | [] => []
  | .transition old new :: rest => (old, new) :: transitionsSinceReset rest
  | .step e :: rest => if e = encode .reset then [] else transitionsSinceReset rest

/-- The `k`-th entry of `READY→BEAM_ON, BEAM_ON→BEAM_OFF, BEAM_OFF→READY` repeated. -/
def cycleAt (k : Nat) : SpillState × SpillState :=
  match k % 3 with
  | 0 => (.ready, .beamOn)
  | 1 => (.beamOn, .beamOff)
  | _ => (.beamOff, .ready)

/-- The spill state after `k` entries of the cycle. -/
def stateAfter (k : Nat) : SpillState :=
  match k % 3 with
  | 0 => .ready
  | 1 => .beamOn
  | _ => .beamOff

/-- The order law (R136): the entries since the last RESET, oldest first, are a prefix of the repeated cycle, and
`spill_state` is where that prefix ends. -/
def OrderLaw (s : State) : Prop :=
  (transitionsSinceReset s.history).reverse =
      (List.range (transitionsSinceReset s.history).length).map cycleAt ∧
    s.spillState = stateAfter (transitionsSinceReset s.history).length

/-! ## Executions and progress (R10, R55, R60) -/

/-- An execution: a sequence of steps, each of whose guards holds in the state it starts from (R10, R55). Nothing is assumed
of the environment's steps in it (R60). -/
def IsExecution (σ : Nat → State) (ι : Nat → Instr) : Prop :=
  ∀ n, (ι n).isStep = true ∧ enabled (ι n) (σ n) = true ∧ exec (ι n) (σ n) = .next (σ (n + 1))

/-- A run of the machine's own `step`. -/
def IsRun (σ : Nat → State) : Prop := ∀ n, step (σ n) = .next (σ (n + 1))

/-- The instruction that fires in a step: the one fetched, if its guard holds (R9). -/
def fires (s : State) : Option Instr :=
  match fetch s with
  | .ok (i, t) => if enabled i t then some i else none
  | .error _ => none

/-- Weak fairness of the two core agents (R60): a DRAIN that stays enabled eventually fires, and the polling agent takes
steps infinitely often. `ι n` is the instruction that fires in state `σ n`, if one does. -/
structure WeaklyFair (σ : Nat → State) (ι : Nat → Option Instr) : Prop where
  handler : ∀ n, (∀ m, n ≤ m → enabled .drain (σ m) = true) → ∃ m, n ≤ m ∧ ι m = some .drain
  polling : ∀ n, ∃ m i, n ≤ m ∧ ι m = some i ∧ i.isPolling = true

/-! ## What no rule reads -/

/-- The state with everything hidden that "no core logic depends on" (R31), that is "read by no rule of the core" (R32) or
is bookkeeping no rule reads (R33). -/
def hideOutputs (s : State) : State :=
  { s with
    ind0 := false, ind1 := false, fltStagingOvf := false, fltBankCount := false, fltIdMismatch := false
    ret := .none, history := [] }

/-- The same of an outcome. -/
def hideOutcome (o : Host.Outcome State Fault Refusal) : Host.Outcome State Fault Refusal :=
  match o with
  | .next t => .next (hideOutputs t)
  | .fault e => .fault e
  | .refused r => .refused r

end Sys2Proof.Machine
end

