-- ==== Sys2Proof/Certificates/Slice0/Obligations.lean ====
section
/-! DEFINITION. The statements for the provers. Each docstring names the rule of the spec it formalises; a step's event
word is given as the rule gives it, its guard as its own rule gives it, and its result as the conclusion that `exec`
answers a next state. The history is the model's bookkeeping (log 21); the outcome type is `Host.Outcome`. -/

open Sys2Proof Sys2Proof.Machine

/-! ## Event words -/

/-- Every well-formed instruction is decoded from its own encoding, with every operand at every value (R76 to R78; the
words beside the event word are log 9). -/
def Obligations.DecodeOfEncode : Prop :=
  ∀ i : Instr, WellFormed i = true → decode (encode i) = .ok i

/-- An event the decoder accepts is the encoding of what it answers: no two events name one instruction and no bit is
dropped; and what it answers is well-formed, but for a FILL whose header word is zero, which no guard lets fire
(R76 to R78, R81, R91; log 9, log 10). -/
def Obligations.EncodeOfDecode : Prop :=
  ∀ (e : Event) (i : Instr), decode e = .ok i →
    encode i = e ∧ ((∀ b p f, i ≠ .fill b 0#32 p f) → WellFormed i = true) ∧
      ∀ (b : BankIdx) (p : List Word) (f : Word), i = .fill b 0#32 p f →
        p.length < 1024 ∧ ∀ s, enabled i s = false

/-- The spec's event-word vectors V1 to V14 (95_test_vectors, 2.1). -/
def Obligations.EventWordVectors : Prop :=
  decode ⟨0x0000#16, []⟩ = .ok .reset ∧
  decode ⟨0x0405#16, [0x00300000#32, 0xB0#32, 0xB1#32, 0xF00D0002#32]⟩ =
    .ok (.fill 5#4 0x00300000#32 [0xB0#32, 0xB1#32] 0xF00D0002#32) ∧
  decode ⟨0x040F#16, [0x00100000#32, 0xF00D0001#32]⟩ = .ok (.fill 15#4 0x00100000#32 [] 0xF00D0001#32) ∧
  decode ⟨0x0410#16, [0x00100000#32, 0xF00D0001#32]⟩ = .error .nonzeroArg ∧
  decode ⟨0x1001#16, []⟩ = .ok (.setStart true) ∧
  decode ⟨0x1002#16, []⟩ = .error .nonzeroArg ∧
  decode ⟨0x1800#16, []⟩ = .error .reservedCode ∧
  decode ⟨0x4C00#16, []⟩ = .ok .pushPay ∧
  decode ⟨0x4001#16, []⟩ = .error .nonzeroArg ∧
  decode ⟨0x6000#16, []⟩ = .error .reservedCode ∧
  decode ⟨0x8000#16, []⟩ = .ok .drain ∧
  decode ⟨0x8400#16, []⟩ = .error .reservedCode ∧
  decode ⟨0xDC00#16, [0xAB#32]⟩ = .ok (.push 0xAB#32) ∧
  decode ⟨0xFC00#16, []⟩ = .error .reservedCode

/-- The reserved event words of R81. A word whose `cls` and `code` are not listed, or a listed one with a bit of `arg` set
that R76 requires to be zero, is invalid whatever travels beside it; `spill_state` has no value 0b11 and `phase` no value 7.
That a step which meets such a word is refused by name is the model's choice (DESIGN CHOICE, log 8): R81 attaches no hardware
behaviour to it. -/
def Obligations.ReservedEventWordsInvalid : Prop :=
  (∀ (w : EventWord) (args : List Word),
    ((w.extractLsb' 14 2 = 0b00#2 ∧ 6 ≤ (w.extractLsb' 10 4).toNat) ∨
      (w.extractLsb' 14 2 = 0b01#2 ∧ 8 ≤ (w.extractLsb' 10 4).toNat) ∨
      (w.extractLsb' 14 2 = 0b10#2 ∧ 1 ≤ (w.extractLsb' 10 4).toNat) ∨
      (w.extractLsb' 14 2 = 0b11#2 ∧ (w.extractLsb' 10 4).toNat = 15) ∨
      (w.extractLsb' 10 6 = 0b000001#6 ∧ w.extractLsb' 4 6 ≠ 0#6) ∨
      (w.extractLsb' 10 6 = 0b000100#6 ∧ w.extractLsb' 1 9 ≠ 0#9) ∨
      (w.extractLsb' 10 6 ≠ 0b000001#6 ∧ w.extractLsb' 10 6 ≠ 0b000100#6 ∧ w.extractLsb' 0 10 ≠ 0#10)) →
    ∃ r, decode ⟨w, args⟩ = .error r ∧
      ∀ (s : State) (rest : List Event), s.script = ⟨w, args⟩ :: rest → step s = .refused (.invalidEvent r)) ∧
  (∀ s : State, spillCode s.spillState ≠ 0b11#2 ∧ phaseCode s.phase ≠ 7#3)

/-- No event word belongs to two rows of the opcode table: an instruction whose event word matches a row under that row's
mask belongs to that row (R77, R78). -/
def Obligations.OpcodeTableUnambiguous : Prop :=
  ∀ i j : Instr, (encode i).word &&& (tableRow j).2 = (tableRow j).1 → tableRow i = tableRow j

/-! ## Which step is taken -/

/-- A step runs the decoded instruction: where the script's first event decodes, `step` is `exec` of that instruction in
the state whose script is the rest (R55, R83; log 5). Nothing else is added around `exec`. -/
def Obligations.StepRunsScriptedEvent : Prop :=
  ∀ (s : State) (e : Event) (rest : List Event) (i : Instr),
    s.script = e :: rest → decode e = .ok i → step s = exec i { s with script := rest }

/-- With no script left the environment is silent and a core agent moves (R55, R79, R80; the model's choice, log 6): the
polling agent takes the step R79 enables, unless an edge is latched, when either may go first; beside the step itself only
the model's counter and DRAIN's wait change. The core agents are weakly fair (R60): every run of `step` is so, whatever the
free values, and in every weakly fair execution, whatever the environment does in it, a latched edge is drained in the end
unless a RESET drops it. Nothing is owed by the environment: with the script gone, BEAM_OFF and no edge latched, the run
stays parked in BEAM_OFF. -/
def Obligations.UnscriptedStepIsCoreAgent : Prop :=
  (∀ s : State, s.script = [] → ∃ w : Option Nat,
    (s.edgeLatch = false → step s = exec (pollingStep s) { s with tick := s.tick + 1, wait := w }) ∧
      (step s = exec (pollingStep s) { s with tick := s.tick + 1, wait := w } ∨
        (s.edgeLatch = true ∧ step s = exec .drain { s with tick := s.tick + 1, wait := w }))) ∧
  (∀ σ : Nat → State, IsRun σ → WeaklyFair σ (fun n => fires (σ n))) ∧
  (∀ (σ : Nat → State) (ι : Nat → Instr), IsExecution σ ι → WeaklyFair σ (fun n => some (ι n)) →
    ∀ n, (σ n).edgeLatch = true → ∃ m, n ≤ m ∧ (ι m = .drain ∨ ι m = .reset)) ∧
  (∀ σ : Nat → State, IsRun σ → (σ 0).script = [] → (σ 0).spillState = .beamOff → (σ 0).edgeLatch = false →
    ∀ n, (σ n).spillState = .beamOff)

/-- R79: the dispatch table, row by row, and that in every state exactly one polling-agent step is enabled, the one the
table gives, whose guard is the one its own rule gives it. -/
def Obligations.PollingDispatchTable : Prop :=
  ∀ s : State,
    (s.phase = .scan → s.spillState = .beamOn → pollingStep s = .scan) ∧
    (s.phase = .scan → s.spillState = .ready → s.startEn = true → pollingStep s = .beginSpill) ∧
    (s.phase = .scan → s.spillState = .ready → s.startEn = false → pollingStep s = .idle) ∧
    (s.phase = .scan → s.spillState = .beamOff → pollingStep s = .idle) ∧
    (s.phase = .check → pollingStep s = .check) ∧
    (s.phase = .pushHdr → pollingStep s = .pushHdr) ∧
    (s.phase = .pushPay → pollingStep s = .pushPay) ∧
    (s.phase = .pushFtr → pollingStep s = .pushFtr) ∧
    (s.phase = .clear → pollingStep s = .clear) ∧
    (s.phase = .halt → s.spillState = .ready → s.startEn = true → pollingStep s = .beginSpill) ∧
    (s.phase = .halt → s.spillState = .ready → s.startEn = false → pollingStep s = .idle) ∧
    (s.phase = .halt → s.spillState = .beamOn ∨ s.spillState = .beamOff → pollingStep s = .idle) ∧
    (∀ i : Instr, i.isPolling = true → (enabled i s = true ↔ i = pollingStep s))

/-- A step whose guard is false has no effect: the state is what it was (R9; that the event is then dropped is log 7).
The guards are those of R77 and of each step's own rule. -/
def Obligations.DisabledStepHasNoEffect : Prop :=
  ∀ (i : Instr) (s : State), i.isStep = true → enabled i s = false → exec i s = .next s

/-! ## Reset -/

/-- R40: the state after reset, for any parameters and any level of the two inputs: every value the table gives, and no
memory word written. (The values of the four record registers are the model's, log 16: nothing is said of them.) -/
def Obligations.StateAfterReset : Prop :=
  (∀ (cfg : Params) (line start : Bool), ∃ s, s = State.resetWith cfg line start ∧
    s.spillState = .ready ∧ spillCode s.spillState = 0b00#2 ∧ s.phase = .scan ∧ phaseCode s.phase = 0#3 ∧
    s.bankCursor = 0#4 ∧ s.wr = 0 ∧ s.rd = 0 ∧ s.occupied = 0 ∧ s.edgeLatch = false ∧ s.lineLevel = line ∧
    s.startEn = start ∧ s.ind0 = true ∧ s.ind1 = false ∧ s.fltStagingOvf = false ∧ s.fltBankCount = false ∧
    s.fltIdMismatch = false ∧ s.bank = [] ∧ s.staging = [] ∧ s.mailbox = []) ∧
  State.reset = State.resetWith Config.standard false false

/-- RESET in any state (R176, R177, R40): every element the table gives a value takes it; the inputs stand at their
current levels (log 17) and no memory word is written; the record registers keep no more than their width (their values
are free, log 15: nothing else is said of them). The first polling-agent step after it is IDLE or BEGIN_SPILL (R178). -/
def Obligations.ResetFromAnyState : Prop :=
  encode .reset = ⟨0x0000#16, []⟩ ∧
  ∀ s : State, ∃ t, exec .reset s = .next t ∧
    t.spillState = .ready ∧ t.phase = .scan ∧ t.bankCursor = 0#4 ∧ t.wr = 0 ∧ t.rd = 0 ∧ t.occupied = 0 ∧
    t.edgeLatch = false ∧ t.ind0 = true ∧ t.ind1 = false ∧
    t.fltStagingOvf = false ∧ t.fltBankCount = false ∧ t.fltIdMismatch = false ∧
    t.cntReg < 2 ^ countWidth s.cfg ∧ t.payIdx < 2 ^ countWidth s.cfg ∧
    t.lineLevel = s.lineLevel ∧ t.startEn = s.startEn ∧
    unchanged .bank s t ∧ unchanged .staging s t ∧ unchanged .mailbox s t ∧
    pollingStep t = (if s.startEn then .beginSpill else .idle) ∧ enabled .drain t = false

/-! ## Environment steps -/

/-- LINE_RISE (R144); with the line high its guard is false and it has no effect (R9; that the event is dropped is log 7,
DEDUCED). -/
def Obligations.LineRiseSetsLatch : Prop :=
  encode .lineRise = ⟨0x0800#16, []⟩ ∧
  ∀ s : State,
    (s.lineLevel = false → ∃ t, exec .lineRise s = .next t ∧ t.lineLevel = true ∧ t.edgeLatch = true ∧
      enabled .drain t = true ∧ UnchangedBut [.lineLevel, .edgeLatch] s t) ∧
    (s.lineLevel = true → exec .lineRise s = .next s)

/-- LINE_FALL (R145); with the line low its guard is false and it has no effect (R9; that the event is dropped is log 7,
DEDUCED). With `EDGE_BOTH = false` it changes `line_level` only; with `EDGE_BOTH = true` it also enables a
DRAIN, which does nothing but acknowledge. -/
def Obligations.LineFallLowersLevel : Prop :=
  encode .lineFall = ⟨0x0C00#16, []⟩ ∧
  ∀ s : State,
    (s.lineLevel = true → ∃ t, exec .lineFall s = .next t ∧ t.lineLevel = false ∧
      t.edgeLatch = (s.cfg.edgeBoth || s.edgeLatch) ∧ UnchangedBut [.lineLevel, .edgeLatch] s t ∧
      (s.cfg.edgeBoth = true → ∃ u, exec .drain t = .next u ∧ u.edgeLatch = false ∧ UnchangedBut [.edgeLatch] t u)) ∧
    (s.lineLevel = false → exec .lineFall s = .next s)

/-- R134: SET_START, a level: it acts through the dispatch alone, making BEGIN_SPILL the polling agent's step in READY
once its phase is SCAN or HALT, and lowering it before BEGIN_SPILL starts no spill. -/
def Obligations.SetStartSetsLevel : Prop :=
  (∀ v : Bool, (encode (.setStart v)).word = 0x1000#16 + (if v then 1#16 else 0#16)) ∧
  ∀ (v : Bool) (s : State), ∃ t, exec (.setStart v) s = .next t ∧ t.startEn = v ∧ UnchangedBut [.startEn] s t ∧
    (s.spillState = .ready → s.phase = .scan ∨ s.phase = .halt →
      pollingStep t = if v then .beginSpill else .idle) ∧
    (enabled .beginSpill t = true → v = true)

/-- R127: MBOX_READ returns `mailbox[i]` and changes no state of the block: nothing is acknowledged, advanced or freed. -/
def Obligations.MboxReadReturnsWord : Prop :=
  ∀ (k : Nat) (s : State), (encode (.mboxRead k)).word = 0x1400#16 ∧
    (k < s.cfg.mailboxCapacity → ∃ t, exec (.mboxRead k) s = .next t ∧ t.ret = .word (s.mailboxWord k) ∧
      UnchangedBut [] s t)

/-- FILL on an empty bank with a non-zero header word (R91, R47): every word of BANK space after it, payload under a later
footer, header last, whatever the count in the header and the payload's length up to `C − 1`. Nothing but bank words changes,
and the bank is full. On a full bank, and with a zero header word, FILL has no effect (R9, R92, R180; log 7, log 10). -/
def Obligations.FillWritesRecord : Prop :=
  ∀ (b : BankIdx) (h f : Word) (p : List Word) (s : State),
    (encode (.fill b h p f)).word = 0x0400#16 + b.setWidth 16 ∧
    (s.cfg.Valid → p.length < 1024 → h ≠ 0#32 → s.bankWord b 0 = 0#32 →
      ∃ t, exec (.fill b h p f) s = .next t ∧ UnchangedBut [.bank] s t ∧ t.isFull b = true ∧
      ∀ (c : BankIdx) (o : Nat), o < 1024 →
        t.bankWord c o =
          if c ≠ b then s.bankWord c o
          else if o = 0 then h
          else if o = s.cfg.footerOffset then f
          else if o ≤ p.length then p.getD (o - 1) 0#32
          else s.bankWord c o) ∧
    (s.bankWord b 0 ≠ 0#32 ∨ h = 0#32 → exec (.fill b h p f) s = .next s)

/-! ## Ingest -/

/-- R106: SCAN examines one bank: an empty one is passed over, a full one's header is latched and the cursor stays. -/
def Obligations.ScanExaminesOneBank : Prop :=
  encode .scan = ⟨0x4000#16, []⟩ ∧
  ∀ s : State, s.phase = .scan → s.spillState = .beamOn →
    (s.bankWord s.bankCursor 0 = 0#32 → ∃ t, exec .scan s = .next t ∧
      t.bankCursor.toNat = (s.bankCursor.toNat + 1) % 16 ∧ t.phase = .scan ∧ UnchangedBut [.bankCursor] s t) ∧
    (s.bankWord s.bankCursor 0 ≠ 0#32 → ∃ t, exec .scan s = .next t ∧
      t.hdrReg = s.bankWord s.bankCursor 0 ∧ t.phase = .check ∧ UnchangedBut [.hdrReg, .phase] s t)

/-- With every bank empty SCAN repeats, the cursor cycling through the banks (R106's corner case, R113): after `k`
polling steps it has moved `k` places modulo 16 and nothing else has changed. -/
def Obligations.SweepOfEmptyBanks : Prop :=
  ∀ s : State, s.phase = .scan → s.spillState = .beamOn → (∀ b, s.bankWord b 0 = 0#32) →
    ∀ k : Nat, ∃ t, polls k s = .next t ∧ t.bankCursor.toNat = (s.bankCursor.toNat + k) % 16 ∧
      UnchangedBut [.bankCursor] s t

/-- R107: CHECK latches the count and the footer and makes its three tests: the identifier (flag only), then the count,
then the room for the whole record; a fatal one halts the sequencer, and at most one is raised. -/
def Obligations.CheckValidatesRecord : Prop :=
  encode .check = ⟨0x4400#16, []⟩ ∧
  ∀ (s : State) (n : Nat) (f : Word), s.cfg.Valid → s.phase = .check →
    n = (s.hdrReg.extractLsb' s.cfg.cntLo (s.cfg.cntHi - s.cfg.cntLo + 1)).toNat →
    f = s.bankWord s.bankCursor s.cfg.footerOffset →
    ∃ t, exec .check s = .next t ∧ t.cntReg = n ∧ t.ftrReg = f ∧
      t.fltIdMismatch = (s.fltIdMismatch ||
        decide (∃ id, bankIdOf s.cfg s.hdrReg f = some id ∧ id ≠ s.bankCursor)) ∧
      (n = 0 ∨ 1024 < n →
        t.phase = .halt ∧ t.fltBankCount = true ∧ t.fltStagingOvf = s.fltStagingOvf) ∧
      (1 ≤ n → n ≤ 1024 → s.cfg.stagingCapacity < s.wr + n + 1 →
        t.phase = .halt ∧ t.fltBankCount = s.fltBankCount ∧ t.fltStagingOvf = true) ∧
      (1 ≤ n → n ≤ 1024 → s.wr + n + 1 ≤ s.cfg.stagingCapacity →
        t.phase = .pushHdr ∧ t.fltBankCount = s.fltBankCount ∧ t.fltStagingOvf = s.fltStagingOvf) ∧
      UnchangedBut [.cntReg, .ftrReg, .phase, .fltStagingOvf, .fltBankCount, .fltIdMismatch] s t

/-- R159: a halted sequencer stays halted through every step but BEGIN_SPILL and RESET, which put it back to SCAN; while
it is halted no flag is raised, so a second fault cannot occur; and its only polling steps are IDLE and BEGIN_SPILL. -/
def Obligations.HaltLeftOnlyByNewSpillOrReset : Prop :=
  ∀ (i : Instr) (s t : State), i.isStep = true → s.phase = .halt → exec i s = .next t →
    (i ≠ .beginSpill → i ≠ .reset → t.phase = .halt ∧
      t.fltStagingOvf = s.fltStagingOvf ∧ t.fltBankCount = s.fltBankCount ∧ t.fltIdMismatch = s.fltIdMismatch) ∧
    (i = .reset ∨ (i = .beginSpill ∧ s.spillState = .ready ∧ s.startEn = true) → t.phase = .scan) ∧
    pollingStep s = (if s.spillState = .ready ∧ s.startEn = true then .beginSpill else .idle)

/-- R108: PUSH_HDR stages the header unchanged and skips PUSH_PAY for a record without payload. -/
def Obligations.PushHdrStagesHeader : Prop :=
  encode .pushHdr = ⟨0x4800#16, []⟩ ∧
  ∀ s : State, s.phase = .pushHdr → s.wr < s.cfg.stagingCapacity → ∃ t, exec .pushHdr s = .next t ∧
    t.stagingWord s.wr = s.hdrReg ∧ t.wr = s.wr + 1 ∧ t.occupied = s.occupied + 1 ∧ t.payIdx = 1 ∧
    t.phase = (if s.cntReg = 1 then .pushFtr else .pushPay) ∧
    (∀ a, a ≠ s.wr → t.stagingWord a = s.stagingWord a) ∧
    UnchangedBut [.staging, .wr, .occupied, .payIdx, .phase] s t

/-- R109: PUSH_PAY stages one payload word verbatim, from the bank offset `pay_idx`; after the last one it goes on to the
footer, else to the next word. -/
def Obligations.PushPayStagesWord : Prop :=
  encode .pushPay = ⟨0x4C00#16, []⟩ ∧
  ∀ s : State, s.phase = .pushPay → s.wr < s.cfg.stagingCapacity → s.payIdx < 1024 → 1 ≤ s.cntReg →
    ∃ t, exec .pushPay s = .next t ∧
      t.stagingWord s.wr = s.bankWord s.bankCursor s.payIdx ∧ t.wr = s.wr + 1 ∧ t.occupied = s.occupied + 1 ∧
      (s.payIdx = s.cntReg - 1 → t.phase = .pushFtr ∧ t.payIdx = s.payIdx) ∧
      (s.payIdx ≠ s.cntReg - 1 → t.phase = .pushPay ∧ t.payIdx = s.payIdx + 1) ∧
      (∀ a, a ≠ s.wr → t.stagingWord a = s.stagingWord a) ∧
      UnchangedBut [.staging, .wr, .occupied, .payIdx, .phase] s t

/-- R110: PUSH_FTR stages the footer word CHECK captured, not a fresh read. -/
def Obligations.PushFtrStagesFooter : Prop :=
  encode .pushFtr = ⟨0x5000#16, []⟩ ∧
  ∀ s : State, s.phase = .pushFtr → s.wr < s.cfg.stagingCapacity → ∃ t, exec .pushFtr s = .next t ∧
    t.stagingWord s.wr = s.ftrReg ∧ t.wr = s.wr + 1 ∧ t.occupied = s.occupied + 1 ∧ t.phase = .clear ∧
    (∀ a, a ≠ s.wr → t.stagingWord a = s.stagingWord a) ∧
    UnchangedBut [.staging, .wr, .occupied, .phase] s t

/-- R111: CLEAR frees the bank and advances the cursor; of all bank words only that header changes, and FILL on the bank
is enabled. -/
def Obligations.ClearFreesBank : Prop :=
  encode .clear = ⟨0x5400#16, []⟩ ∧
  ∀ s : State, s.phase = .clear → ∃ t, exec .clear s = .next t ∧
    t.bankWord s.bankCursor 0 = 0#32 ∧ t.bankCursor.toNat = (s.bankCursor.toNat + 1) % 16 ∧ t.phase = .scan ∧
    (∀ h p f, h ≠ 0#32 → enabled (.fill s.bankCursor h p f) t = true) ∧
    (∀ (b : BankIdx) (o : Nat), o < 1024 → (b ≠ s.bankCursor ∨ o ≠ 0) → t.bankWord b o = s.bankWord b o) ∧
    UnchangedBut [.bank, .bankCursor, .phase] s t

/-- R112: IDLE, where R79 selects it, leaves the state unchanged. -/
def Obligations.IdleChangesNothing : Prop :=
  encode .idle = ⟨0x5C00#16, []⟩ ∧
  ∀ s : State,
    ((s.phase = .scan ∧ (s.spillState = .beamOff ∨ (s.spillState = .ready ∧ s.startEn = false))) ∨
      (s.phase = .halt ∧ ¬ (s.spillState = .ready ∧ s.startEn = true))) →
    pollingStep s = .idle ∧ ∃ t, exec .idle s = .next t ∧ UnchangedBut [] s t

/-- R133: BEGIN_SPILL, one atomic step: every header zeroed, the cursors and the sequencer reset, the indicators set; not
written: the other bank words, the staging words, the mailbox, the latch, the flags, the record registers. -/
def Obligations.BeginSpillInitialises : Prop :=
  encode .beginSpill = ⟨0x5800#16, []⟩ ∧
  ∀ s : State, s.spillState = .ready → s.phase = .scan ∨ s.phase = .halt → s.startEn = true →
    ∃ t, exec .beginSpill s = .next t ∧
      (∀ b, t.bankWord b 0 = 0#32) ∧ (∀ b o, 1 ≤ o → o < 1024 → t.bankWord b o = s.bankWord b o) ∧
      t.bankCursor = 0#4 ∧ t.wr = 0 ∧ t.rd = 0 ∧ t.occupied = 0 ∧ t.phase = .scan ∧
      t.ind0 = true ∧ t.ind1 = false ∧ t.spillState = .beamOn ∧
      UnchangedBut [.bank, .bankCursor, .wr, .rd, .occupied, .phase, .ind0, .ind1, .spillState] s t

/-- A BEGIN_SPILL taken from a clean READY leaves a clean spill start (R179), and the state after reset is a clean READY. -/
def Obligations.CleanSpillStartReached : Prop :=
  (∀ (cfg : Params) (line start : Bool), CleanReady (State.resetWith cfg line start)) ∧
  ∀ s : State, CleanReady s → s.startEn = true → ∃ t, exec .beginSpill s = .next t ∧ CleanSpillStart t

/-- A whole record is ingested in `n + 4` polling-agent steps (R84, R72, R103, R105): its header, its `n − 1` payload words
and its footer are staged verbatim in that order above the write cursor, its bank is freed and the cursor advanced. -/
def Obligations.RecordIngestedWhole : Prop :=
  ∀ (s : State) (n : Nat), s.cfg.Valid → s.phase = .scan → s.spillState = .beamOn →
    s.bankWord s.bankCursor 0 ≠ 0#32 → n = wordCount s.cfg (s.bankWord s.bankCursor 0) →
    1 ≤ n → n ≤ 1024 → s.wr + n + 1 ≤ s.cfg.stagingCapacity →
    ∃ t, polls (n + 4) s = .next t ∧
      t.phase = .scan ∧ t.spillState = .beamOn ∧ t.bankCursor.toNat = (s.bankCursor.toNat + 1) % 16 ∧
      t.wr = s.wr + n + 1 ∧ t.occupied = s.occupied + n + 1 ∧ t.rd = s.rd ∧
      t.stagingWord s.wr = s.bankWord s.bankCursor 0 ∧
      (∀ k, 1 ≤ k → k < n → t.stagingWord (s.wr + k) = s.bankWord s.bankCursor k) ∧
      t.stagingWord (s.wr + n) = s.bankWord s.bankCursor s.cfg.footerOffset ∧
      (∀ a, a < s.wr ∨ s.wr + n < a → t.stagingWord a = s.stagingWord a) ∧
      t.bankWord s.bankCursor 0 = 0#32 ∧
      (∀ b o, o < 1024 → (b ≠ s.bankCursor ∨ o ≠ 0) → t.bankWord b o = s.bankWord b o) ∧
      unchanged .mailbox s t ∧ unchanged .lineLevel s t ∧ unchanged .edgeLatch s t ∧ t.cfg = s.cfg

/-! ## Drain -/

/-- R121, R122: DRAIN, in every spill state (R126). With the level high: the frame, the mailbox words it does not write
(R125), the cursors, the latch, and the spill state and indicators, which the buffer's emptiness after the pop decides
(R123, R124). With the level low: the latch alone. -/
def Obligations.DrainMovesOneBatch : Prop :=
  encode .drain = ⟨0x8000#16, []⟩ ∧
  (∀ (s : State) (n : Nat), s.cfg.Valid → CursorInv s → s.edgeLatch = true → s.lineLevel = true →
    n = min (s.cfg.mailboxCapacity - 1) s.occupied →
    ∃ t, exec .drain s = .next t ∧
      t.mailboxWord 0 = BitVec.ofNat 32 n ∧
      (∀ k, k < n → t.mailboxWord (1 + k) = s.stagingWord (s.rd + k)) ∧
      (∀ k, n < k → t.mailboxWord k = s.mailboxWord k) ∧
      t.rd = s.rd + n ∧ t.occupied = s.occupied - n ∧ t.edgeLatch = false ∧
      (s.occupied = n → t.spillState = .ready ∧ t.ind0 = true ∧ t.ind1 = true) ∧
      (s.occupied ≠ n → s.spillState = .beamOn → t.spillState = .beamOff ∧ t.ind0 = false ∧ t.ind1 = true) ∧
      (s.occupied ≠ n → s.spillState ≠ .beamOn →
        t.spillState = s.spillState ∧ t.ind0 = s.ind0 ∧ t.ind1 = s.ind1) ∧
      UnchangedBut [.mailbox, .rd, .occupied, .edgeLatch, .spillState, .ind0, .ind1] s t) ∧
  (∀ s : State, s.edgeLatch = true → s.lineLevel = false →
    ∃ t, exec .drain s = .next t ∧ t.edgeLatch = false ∧ UnchangedBut [.edgeLatch] s t)

/-- Where DRAIN takes the spill state and the indicators (R123, R124, R126, R139): READY when the buffer is empty after the
pop, whatever the state was; else BEAM_ON becomes BEAM_OFF and the other two stay. -/
def Obligations.DrainDrivesSpillState : Prop :=
  ∀ s t : State, s.edgeLatch = true → s.lineLevel = true → exec .drain s = .next t →
    (t.occupied = 0 → t.spillState = .ready ∧ t.ind0 = true ∧ t.ind1 = true) ∧
    (t.occupied ≠ 0 → s.spillState = .beamOn → t.spillState = .beamOff ∧ t.ind0 = false ∧ t.ind1 = true) ∧
    (t.occupied ≠ 0 → s.spillState ≠ .beamOn →
      t.spillState = s.spillState ∧ t.ind0 = s.ind0 ∧ t.ind1 = s.ind1)

/-- R129: a DRAIN whose level test fails changes nothing but `edge_latch`; DRAIN cannot fire while the latch is clear; so
with the line held high and no new rising transition there is no second drain. -/
def Obligations.DrainNoOpLaw : Prop :=
  (∀ s : State, s.edgeLatch = true → s.lineLevel = false →
    ∃ t, exec .drain s = .next t ∧ t.edgeLatch = false ∧ UnchangedBut [.edgeLatch] s t) ∧
  (∀ s : State, s.edgeLatch = false → enabled .drain s = false ∧ exec .drain s = .next s) ∧
  (∀ s t : State, exec .drain s = .next t → enabled .drain t = false ∧ exec .drain t = .next t)

/-- With `T` words staged at the first DRAIN of a spill, and consumer handshakes alone after it (rise, DRAIN, fall: one kind of
execution without a late push), the spill returns to READY after exactly
`max(1, ceil(T / (M − 1)))` DRAINs served high, each frame carrying its share; before that it is in BEAM_OFF
(R128; a count word of 2^32 or more is log 22). -/
def Obligations.DrainsNeededBySpill : Prop :=
  ∀ (s : State) (T needed : Nat), s.cfg.Valid → CursorInv s → s.spillState = .beamOn → s.lineLevel = false →
    T = s.occupied →
    needed = max 1 ((T + (s.cfg.mailboxCapacity - 2)) / (s.cfg.mailboxCapacity - 1)) →
    ∀ k, 1 ≤ k → k ≤ needed → ∃ t, runAll (pulses k) s = .next t ∧
      t.spillState = (if k < needed then .beamOff else .ready) ∧
      t.mailboxWord 0 =
        BitVec.ofNat 32 (if k < needed then s.cfg.mailboxCapacity - 1
          else T - (s.cfg.mailboxCapacity - 1) * (needed - 1)) ∧
      t.occupied = T - (s.cfg.mailboxCapacity - 1) * k

/-- The FIFO law of the staging buffer, step by step (R102): a push appends to the words awaiting drain, a DRAIN takes its
frame's body from their front, RESET and BEGIN_SPILL forget them, and no other step touches them. -/
def Obligations.StagingIsFifo : Prop :=
  ∀ (i : Instr) (s t : State), Inv s → i.isStep = true → enabled i s = true → exec i s = .next t →
    (i = .pushHdr → pending t = pending s ++ [s.hdrReg]) ∧
    (i = .pushPay → pending t = pending s ++ [s.bankWord s.bankCursor s.payIdx]) ∧
    (i = .pushFtr → pending t = pending s ++ [s.ftrReg]) ∧
    (i = .drain → s.lineLevel = true → pending s = frameBody (drainSize s) t ++ pending t) ∧
    (i = .reset ∨ i = .beginSpill → pending t = []) ∧
    (i ≠ .pushHdr → i ≠ .pushPay → i ≠ .pushFtr → i ≠ .reset → i ≠ .beginSpill → (i = .drain → s.lineLevel = false) →
      pending t = pending s)

/-- The round trip (R130): a record ingested alone in a spill, with `n + 1 ≤ M − 1`, is delivered by the first DRAIN as
the frame `[n + 1, h, p[0], …, p[n − 2], f]`, and the spill ends. -/
def Obligations.RecordRoundTrip : Prop :=
  ∀ (s : State) (n : Nat), s.cfg.Valid → s.phase = .scan → s.spillState = .beamOn →
    s.wr = 0 → s.rd = 0 → s.occupied = 0 → s.lineLevel = false →
    s.bankWord s.bankCursor 0 ≠ 0#32 → n = wordCount s.cfg (s.bankWord s.bankCursor 0) →
    1 ≤ n → n ≤ 1024 → n + 1 ≤ s.cfg.stagingCapacity → n + 1 ≤ s.cfg.mailboxCapacity - 1 →
    ∃ t u, polls (n + 4) s = .next t ∧ runAll riseAndDrain t = .next u ∧
      u.mailboxWord 0 = BitVec.ofNat 32 (n + 1) ∧
      u.mailboxWord 1 = s.bankWord s.bankCursor 0 ∧
      (∀ k, 1 ≤ k → k < n → u.mailboxWord (1 + k) = s.bankWord s.bankCursor k) ∧
      u.mailboxWord (1 + n) = s.bankWord s.bankCursor s.cfg.footerOffset ∧
      (∀ k, n + 1 < k → u.mailboxWord k = s.mailboxWord k) ∧
      u.spillState = .ready ∧ u.occupied = 0 ∧ u.edgeLatch = false

/-! ## Synchronizer -/

/-- R148, R151: any number of edges between two DRAINs count as one, and an edge withdrawn before its DRAIN moves nothing. -/
def Obligations.EdgesMergeAndWithdraw : Prop :=
  ∀ s : State, s.lineLevel = false →
    (∃ t, runAll [.lineRise, .lineFall, .lineRise] s = .next t ∧ t.lineLevel = true ∧ t.edgeLatch = true ∧
      UnchangedBut [.lineLevel, .edgeLatch] s t ∧
      ∀ u, exec .drain t = .next u → u.edgeLatch = false ∧ exec .drain u = .next u) ∧
    (∃ t, runAll [.lineRise, .lineFall, .drain] s = .next t ∧ t.edgeLatch = false ∧ t.lineLevel = false ∧
      UnchangedBut [.edgeLatch] s t)

/-- R29: who writes the latch: it is set only by LINE_RISE, or by LINE_FALL with `EDGE_BOTH`, and cleared only by DRAIN,
RESET and the primitive `acknowledge` (R150), every one of which leaves it 0; DRAIN is enabled exactly when it is 1. -/
def Obligations.EdgeLatchWriters : Prop :=
  ∀ (i : Instr) (s t : State), exec i s = .next t →
    (s.edgeLatch = false → t.edgeLatch = true → i = .lineRise ∨ (i = .lineFall ∧ s.cfg.edgeBoth = true)) ∧
    (s.edgeLatch = true → t.edgeLatch = false → i = .drain ∨ i = .reset ∨ i = .acknowledge) ∧
    (i = .drain ∨ i = .reset ∨ i = .acknowledge → t.edgeLatch = false) ∧
    enabled .drain s = s.edgeLatch

/-- R193: an edge latched in READY across a spill start. If BEGIN_SPILL runs first, its DRAIN (the line still high) ends
the new spill at once, through BEAM_OFF; if DRAIN runs first it is the READY case. -/
def Obligations.EdgePendingAcrossSpillStart : Prop :=
  ∀ s : State, s.cfg.Valid → s.spillState = .ready → s.phase = .scan ∨ s.phase = .halt → s.startEn = true →
    s.edgeLatch = true → s.lineLevel = true →
    (∃ t u, exec .beginSpill s = .next t ∧ t.edgeLatch = true ∧ exec .drain t = .next u ∧
      u.spillState = .ready ∧ u.occupied = 0 ∧ u.mailboxWord 0 = 0#32 ∧
      u.history = [.step ⟨0x8000#16, []⟩, .transition .beamOff .ready, .transition .beamOn .beamOff,
        .step ⟨0x5800#16, []⟩, .transition .ready .beamOn] ++ s.history) ∧
    (s.occupied = 0 → ∃ t, exec .drain s = .next t ∧ t.spillState = .ready ∧ t.mailboxWord 0 = 0#32 ∧
      enabled .beginSpill t = true)

/-! ## Primitives -/

/-- The BankStore primitives as calls: the five reads (R86 to R90) return their value and change no element of the state;
a step that is no FILL of the bank, no CLEAR and no BEGIN_SPILL leaves what `header_of(b)` returns; `clear_header(b)` (R93) writes `bank[b][0]` only. -/
def Obligations.BankStorePrimitives : Prop :=
  ∀ (b : BankIdx) (h : Word) (k : Nat) (s : State), s.cfg.Valid →
    ((encode (.headerOf b)).word = 0xC000#16 ∧ (encode (.isFull b)).word = 0xC400#16 ∧
      (encode (.wordCount h)).word = 0xC800#16 ∧ (encode (.readPayloadWord b k)).word = 0xCC00#16 ∧
      (encode (.readFooter b)).word = 0xD000#16 ∧ (encode (.clearHeader b)).word = 0xD400#16) ∧
    (∃ t, exec (.headerOf b) s = .next t ∧ t.ret = .word (s.bankWord b 0) ∧ UnchangedBut [] s t) ∧
    (∀ (i : Instr) (u : State), i.isStep = true → i ≠ .clear → i ≠ .beginSpill → (∀ g p f, i ≠ .fill b g p f) →
      exec i s = .next u → u.headerOf b = s.headerOf b) ∧
    (∃ t, exec (.isFull b) s = .next t ∧ t.ret = .bool (decide (s.bankWord b 0 ≠ 0#32)) ∧ UnchangedBut [] s t) ∧
    (∃ t, exec (.wordCount h) s = .next t ∧
      t.ret = .int ((h >>> s.cfg.cntLo).toNat % 2 ^ (s.cfg.cntHi - s.cfg.cntLo + 1)) ∧ UnchangedBut [] s t) ∧
    (1 ≤ k → k < 1024 →
      ∃ t, exec (.readPayloadWord b k) s = .next t ∧ t.ret = .word (s.bankWord b k) ∧ UnchangedBut [] s t) ∧
    (∃ t, exec (.readFooter b) s = .next t ∧ t.ret = .word (s.bankWord b s.cfg.footerOffset) ∧ UnchangedBut [] s t) ∧
    (∃ t, exec (.clearHeader b) s = .next t ∧ t.bankWord b 0 = 0#32 ∧ t.isFull b = false ∧
      (∀ g p f, g ≠ 0#32 → enabled (.fill b g p f) t = true) ∧
      (∀ (c : BankIdx) (o : Nat), o < 1024 → (c ≠ b ∨ o ≠ 0) → t.bankWord c o = s.bankWord c o) ∧
      (s.bankWord b 0 = 0#32 → ∀ c o, o < 1024 → t.bankWord c o = s.bankWord c o) ∧ UnchangedBut [.bank] s t)

/-- R97, R100, R149, R150, R153: the primitives `reset()`, `occupied()`, `read_level()`, `acknowledge()` and the
diagnostic write, a no-op. -/
def Obligations.RegisterPrimitives : Prop :=
  (encode .stagingReset = ⟨0xD800#16, []⟩ ∧ encode .occupied = ⟨0xE400#16, []⟩ ∧ encode .readLevel = ⟨0xE800#16, []⟩ ∧
    encode .acknowledge = ⟨0xEC00#16, []⟩ ∧ encode .diagnosticWrite = ⟨0xF800#16, []⟩) ∧
  ∀ s : State,
    (∃ t, exec .stagingReset s = .next t ∧ t.wr = 0 ∧ t.rd = 0 ∧ t.occupied = 0 ∧
      UnchangedBut [.wr, .rd, .occupied] s t) ∧
    (∃ t, exec .occupied s = .next t ∧ t.ret = .int s.occupied ∧ UnchangedBut [] s t) ∧
    (∃ t, exec .readLevel s = .next t ∧ t.ret = .level s.lineLevel ∧ UnchangedBut [] s t) ∧
    (∃ t, exec .acknowledge s = .next t ∧ t.edgeLatch = false ∧ enabled .drain t = false ∧
      UnchangedBut [.edgeLatch] s t) ∧
    exec .diagnosticWrite s = .next s

/-- R98: `push(w)`: below the end of the buffer it appends and counts; at the end it raises STAGING_OVERFLOW, writes no
word and moves no cursor. The test is on the write cursor, never on `spill_state`. -/
def Obligations.PushPrimitive : Prop :=
  ∀ (w : Word) (s : State), encode (.push w) = ⟨0xDC00#16, [w]⟩ ∧
    (s.wr < s.cfg.stagingCapacity → ∃ t, exec (.push w) s = .next t ∧
      t.stagingWord s.wr = w ∧ t.wr = s.wr + 1 ∧ t.occupied = s.occupied + 1 ∧
      (∀ a, a ≠ s.wr → t.stagingWord a = s.stagingWord a) ∧ UnchangedBut [.staging, .wr, .occupied] s t) ∧
    (s.wr = s.cfg.stagingCapacity → ∃ t, exec (.push w) s = .next t ∧
      t.fltStagingOvf = true ∧ t.phase = .halt ∧ UnchangedBut [.fltStagingOvf, .phase] s t)

/-- R99: `pop_batch(maxWords)` returns the count and the words and advances the read cursor; with `occupied = 0` or
`maxWords = 0` it returns an empty list and changes no state. -/
def Obligations.PopBatchPrimitive : Prop :=
  ∀ (m count : Nat) (s : State), (encode (.popBatch m)).word = 0xE000#16 ∧
    (CursorInv s → count = min m s.occupied → ∃ t, exec (.popBatch m) s = .next t ∧
      t.ret = .batch count ((List.range count).map (fun k => s.stagingWord (s.rd + k))) ∧
      t.rd = s.rd + count ∧ t.occupied = s.occupied - count ∧ UnchangedBut [.rd, .occupied] s t) ∧
    (m = 0 ∨ s.occupied = 0 → ∃ t, exec (.popBatch m) s = .next t ∧ t.ret = .batch 0 [] ∧ UnchangedBut [] s t)

/-- R140: the indicator primitives write the one indicator bit and nothing else. -/
def Obligations.IndicatorPrimitives : Prop :=
  (∀ k : Fin 2, (encode (.indicatorSet k)).word = 0xF000#16 ∧ (encode (.indicatorClear k)).word = 0xF400#16) ∧
  ∀ s : State,
    (∃ t, exec (.indicatorSet 0) s = .next t ∧ t.ind0 = true ∧ UnchangedBut [.ind0] s t) ∧
    (∃ t, exec (.indicatorSet 1) s = .next t ∧ t.ind1 = true ∧ UnchangedBut [.ind1] s t) ∧
    (∃ t, exec (.indicatorClear 0) s = .next t ∧ t.ind0 = false ∧ UnchangedBut [.ind0] s t) ∧
    (∃ t, exec (.indicatorClear 1) s = .next t ∧ t.ind1 = false ∧ UnchangedBut [.ind1] s t) ∧
    (∃ t, runAll [.indicatorClear 0, .indicatorSet 1] s = .next t ∧ t.ind0 = false ∧ t.ind1 = true)

/-! ## Frames -/

/-- What each polling-agent step leaves unchanged: every element its own rule does not list as written (R106 to R112, R133,
R35), and of a memory it writes, every word but its own (R108 to R111, R133). -/
def Obligations.PollingAgentFrame : Prop :=
  ∀ (i : Instr) (s t : State), i.isPolling = true → exec i s = .next t → UnchangedBut (written i) s t ∧
    (∀ a, a ≠ s.wr → t.stagingWord a = s.stagingWord a) ∧
    (i = .clear → ∀ b o, o < 1024 → (b ≠ s.bankCursor ∨ o ≠ 0) → t.bankWord b o = s.bankWord b o) ∧
    (∀ b o, 1 ≤ o → o < 1024 → t.bankWord b o = s.bankWord b o)

/-- What DRAIN leaves unchanged (R121, R125, R162): it touches no register of the polling agent, no bank or staging word,
no flag and no input; and of the mailbox no word above the frame, none at all with the level low. -/
def Obligations.HandlerAgentFrame : Prop :=
  ∀ s t : State, exec .drain s = .next t → UnchangedBut (written .drain) s t ∧
    (∀ k, drainSize s < k → t.mailboxWord k = s.mailboxWord k) ∧
    (s.lineLevel = false → unchanged .mailbox s t)

/-- What each environment step leaves unchanged: every element its own rule does not list as written (R91, R127, R134,
R144, R145, R176); FILL writes words of its own bank only. -/
def Obligations.EnvironmentFrame : Prop :=
  ∀ (i : Instr) (s t : State), i.isStep = true → i.isPolling = false → i ≠ .drain → exec i s = .next t →
    UnchangedBut (written i) s t ∧
    (∀ b h p f, i = .fill b h p f → ∀ c o, c ≠ b → o < 1024 → t.bankWord c o = s.bankWord c o)

/-- What each primitive leaves unchanged (R86 to R90, R93, R97 to R100, R140, R149, R150, R153). -/
def Obligations.PrimitiveFrame : Prop :=
  ∀ (i : Instr) (s t : State), i.isStep = false → exec i s = .next t → UnchangedBut (written i) s t ∧
    (∀ a, a ≠ s.wr → t.stagingWord a = s.stagingWord a) ∧
    (∀ b c o, i = .clearHeader b → o < 1024 → (c ≠ b ∨ o ≠ 0) → t.bankWord c o = s.bankWord c o)

/-- No instruction changes the parameters or the script that waits (log 1, log 5). -/
def Obligations.ParametersConstant : Prop :=
  ∀ (i : Instr) (s t : State), exec i s = .next t → t.cfg = s.cfg ∧ t.script = s.script

/-! ## Whole-machine rules -/

/-- R132: the complete transition table of `spill_state`. -/
def Obligations.SpillStateTransitions : Prop :=
  ∀ (i : Instr) (s t : State), exec i s = .next t →
    (t.spillState = s.spillState) ∨
    (s.spillState = .ready ∧ t.spillState = .beamOn ∧ i = .beginSpill ∧
      (s.phase = .scan ∨ s.phase = .halt) ∧ s.startEn = true) ∨
    (s.spillState = .beamOn ∧ t.spillState = .beamOff ∧ i = .drain ∧ s.edgeLatch = true ∧ s.lineLevel = true ∧
      t.occupied ≠ 0) ∨
    ((s.spillState = .beamOff ∨ s.spillState = .beamOn) ∧ t.spillState = .ready ∧ i = .drain ∧ s.edgeLatch = true ∧
      s.lineLevel = true ∧ t.occupied = 0) ∨
    (t.spillState = .ready ∧ i = .reset)

/-- R115: the transitions of `phase`. No step makes another (a push that overflows is excluded by the room an accepted
record has, which the invariant states). -/
def Obligations.PhaseTransitions : Prop :=
  ∀ (i : Instr) (s t : State), Inv s → i.isStep = true → exec i s = .next t →
    (i.isPolling = false → i ≠ .reset → t.phase = s.phase) ∧
    (i = .reset → t.phase = .scan) ∧
    (i.isPolling = true → enabled i s = true →
      (s.phase = .scan ∧ t.phase = .scan ∧
        ((i = .scan ∧ s.bankWord s.bankCursor 0 = 0#32) ∨ i = .idle ∨ i = .beginSpill)) ∨
      (s.phase = .scan ∧ t.phase = .check ∧ i = .scan ∧ s.bankWord s.bankCursor 0 ≠ 0#32) ∨
      (s.phase = .check ∧ (t.phase = .pushHdr ∨ t.phase = .halt) ∧ i = .check) ∨
      (s.phase = .pushHdr ∧ t.phase = .pushPay ∧ i = .pushHdr ∧ 2 ≤ s.cntReg) ∨
      (s.phase = .pushHdr ∧ t.phase = .pushFtr ∧ i = .pushHdr ∧ s.cntReg = 1) ∨
      (s.phase = .pushPay ∧ t.phase = .pushPay ∧ i = .pushPay ∧ s.payIdx + 1 < s.cntReg) ∨
      (s.phase = .pushPay ∧ t.phase = .pushFtr ∧ i = .pushPay ∧ s.payIdx + 1 = s.cntReg) ∨
      (s.phase = .pushFtr ∧ t.phase = .clear ∧ i = .pushFtr) ∨
      (s.phase = .clear ∧ t.phase = .scan ∧ i = .clear) ∨
      (s.phase = .halt ∧ t.phase = .halt ∧ i = .idle) ∨
      (s.phase = .halt ∧ t.phase = .scan ∧ i = .beginSpill))

/-- R95: the cursor moves only by `next`, on an empty bank in SCAN and in CLEAR, and otherwise is only set to 0, by
BEGIN_SPILL and RESET. -/
def Obligations.BankCursorMoves : Prop :=
  (∀ b : BankIdx, (nextBank b).toNat = (b.toNat + 1) % 16) ∧
  ∀ (i : Instr) (s t : State), exec i s = .next t → t.bankCursor ≠ s.bankCursor →
    (t.bankCursor = nextBank s.bankCursor ∧ i = .scan ∧ s.bankWord s.bankCursor 0 = 0#32) ∨
    (t.bankCursor = nextBank s.bankCursor ∧ i = .clear) ∨
    (t.bankCursor = 0#4 ∧ (i = .beginSpill ∨ i = .reset))

/-- R32, R153: a fault flag is set only by CHECK (the overflow flag also by a push's own guard) and cleared only by RESET;
the vector `flt[2:0]` holds each at its code's bit. -/
def Obligations.FaultFlagsSticky : Prop :=
  (∀ (s : State) (c : Condition), (s.flt).getLsbD c.code = s.flag c) ∧
  ∀ (i : Instr) (s t : State) (c : Condition), exec i s = .next t →
    (s.flag c = true → t.flag c = false → i = .reset) ∧
    (s.flag c = false → t.flag c = true →
      (i = .check ∧ s.phase = .check) ∨
        (c = .stagingOverflow ∧ (i = .pushHdr ∨ i = .pushPay ∨ i = .pushFtr ∨ ∃ w, i = .push w)))

/-- R41: the write-permission matrix, agent by agent, for every step but RESET. -/
def Obligations.WritePermissions : Prop :=
  ∀ (i : Instr) (s t : State), Inv s → i.isStep = true → i ≠ .reset → exec i s = .next t →
    (i.isPolling = true →
      (t.spillState = s.spillState ∨ (i = .beginSpill ∧ s.spillState = .ready ∧ t.spillState = .beamOn)) ∧
      (i ≠ .beginSpill → t.rd = s.rd ∧ s.occupied ≤ t.occupied ∧ t.ind0 = s.ind0 ∧ t.ind1 = s.ind1) ∧
      (i = .beginSpill → t = s ∨ t.occupied = 0) ∧
      (∀ b, t.bankWord b 0 = s.bankWord b 0 ∨ (t.bankWord b 0 = 0#32 ∧ (i = .clear ∨ i = .beginSpill))) ∧
      (∀ b o, 1 ≤ o → o < 1024 → t.bankWord b o = s.bankWord b o) ∧
      (i ≠ .pushHdr → i ≠ .pushPay → i ≠ .pushFtr →
        unchanged .staging s t ∧ (t.wr = s.wr ∨ (i = .beginSpill ∧ t.wr = 0))) ∧
      unchanged .mailbox s t ∧ unchanged .edgeLatch s t ∧ unchanged .lineLevel s t ∧ unchanged .startEn s t ∧
      (∀ c, s.flag c = true → t.flag c = true)) ∧
    (i = .drain →
      (s.spillState = .ready → t.spillState = .ready) ∧ (t.spillState = .beamOn → s.spillState = .beamOn) ∧
      t.occupied ≤ s.occupied ∧ (t.edgeLatch = true → s.edgeLatch = true) ∧
      UnchangedBut [.spillState, .rd, .occupied, .mailbox, .edgeLatch, .ind0, .ind1] s t) ∧
    (i.isPolling = false → i ≠ .drain →
      (s.edgeLatch = true → t.edgeLatch = true) ∧
      (∀ b, s.bankWord b 0 ≠ 0#32 → ∀ o, o < 1024 → t.bankWord b o = s.bankWord b o) ∧
      (∀ b, t.bankWord b 0 = s.bankWord b 0 ∨ (s.bankWord b 0 = 0#32 ∧ t.bankWord b 0 ≠ 0#32)) ∧
      UnchangedBut [.bank, .edgeLatch, .lineLevel, .startEn] s t)

/-- R31, R32, R33: no rule reads the indicators, the fault flags, the value last returned or the event history: two states
that differ in nothing else take every instruction alike, choose the same polling step, and differ in nothing else
afterwards. -/
def Obligations.OutputsNeverRead : Prop :=
  ∀ s s' : State, hideOutputs s = hideOutputs s' →
    (∀ i : Instr, hideOutcome (exec i s) = hideOutcome (exec i s')) ∧
    pollingStep s = pollingStep s' ∧ hideOutcome (step s) = hideOutcome (step s')

/-! ## Invariants -/

/-- The invariant holds after reset, for every valid configuration and every level of the inputs (R24, R176, R179). -/
def Obligations.InvariantAtReset : Prop :=
  (∀ (cfg : Params) (line start : Bool), cfg.Valid → Inv (State.resetWith cfg line start)) ∧ Inv State.reset

/-- Every step of the block keeps the invariant, and from a state that meets it every step is taken: no access leaves its
space and no event is refused (R24, R19, R20, R25, R26, R47, R48, R49, R98). -/
def Obligations.EveryStepKeepsInvariant : Prop :=
  ∀ s : State, Inv s → ∃ t, step s = .next t ∧ Inv t

/-- R24: the cursor controller's invariant holds after RESET and is preserved by every step; so `occupied` never goes
negative and in BEAM_ON `occupied = wr`. -/
def Obligations.CursorInvariant : Prop :=
  (∀ (s t : State), exec .reset s = .next t → CursorInv t) ∧
  (∀ (i : Instr) (s t : State), i.isStep = true → CursorInv s → exec i s = .next t → CursorInv t) ∧
  (∀ s : State, CursorInv s → s.occupied + s.rd = s.wr ∧ (s.spillState = .beamOn → s.occupied = s.wr))

/-- R136: in any run the changes of `spill_state` since the last RESET are a prefix of READY→BEAM_ON, BEAM_ON→BEAM_OFF,
BEAM_OFF→READY repeated. -/
def Obligations.SpillOrderLaw : Prop :=
  (∀ (cfg : Params) (line start : Bool), OrderLaw (State.resetWith cfg line start)) ∧
  ∀ s t : State, OrderLaw s → step s = .next t → OrderLaw t

/-- Every instruction, the primitives among them, keeps the memories in canonical form and inside their spaces (R46). -/
def Obligations.MemoriesStayCanonical : Prop :=
  ∀ (i : Instr) (s t : State), MemoryInv s → exec i s = .next t → MemoryInv t

/-- A read after a write to the same place gives the word written, and a write leaves every other place alone, in each of
the three spaces (R47, R48, R49, R53, R56). -/
def Obligations.ReadAfterWrite : Prop :=
  ∀ (s : State) (v : Word),
    (∀ (b c : BankIdx) (o p : Nat), o < 1024 → p < 1024 → ∃ t, bankWrite b o v s = .ok t ∧ bankRead b o t = .ok v ∧
      ((c ≠ b ∨ p ≠ o) → bankRead c p t = bankRead c p s)) ∧
    (∀ a c : Nat, a < s.cfg.stagingCapacity → ∃ t, stagWrite a v s = .ok t ∧ stagRead a t = .ok v ∧
      (c ≠ a → stagRead c t = stagRead c s)) ∧
    (∀ k c : Nat, k < s.cfg.mailboxCapacity → ∃ t, mboxWrite k v s = .ok t ∧ mboxRead k t = .ok v ∧
      (c ≠ k → mboxRead c t = mboxRead c s))

/-- Where the machine stops: at an access outside its space (R47, R48, R49), which the spec calls unreachable; the
model's choice is a fault by name (log 19). -/
def Obligations.AccessOutsideSpaceFaults : Prop :=
  ∀ s : State,
    (∀ k, s.cfg.mailboxCapacity ≤ k → exec (.mboxRead k) s = .fault (.mailboxIndex k)) ∧
    (∀ b k, 1024 ≤ k → exec (.readPayloadWord b k) s = .fault (.bankIndex b k)) ∧
    (s.phase = .pushPay → 1024 ≤ s.payIdx → exec .pushPay s = .fault (.bankIndex s.bankCursor s.payIdx)) ∧
    (∀ m, 0 < m → 0 < s.occupied → s.cfg.stagingCapacity ≤ s.rd →
      exec (.popBatch m) s = .fault (.stagingIndex s.rd)) ∧
    (∀ i r, exec i s ≠ .refused r)
end

