-- ==== Sys2Proof/Laws/State.lean ====
section
/-! SUPPORT. One lemma per field per named update of the state: what the update makes of the field. -/

namespace Sys2Proof.Machine

variable (s : State)

/-! ## `putBank` -/

@[simp] theorem putBank_spillState (b : BankIdx) (o : Nat) (v : Word) : (putBank b o v s).spillState = s.spillState := rfl
@[simp] theorem putBank_bankCursor (b : BankIdx) (o : Nat) (v : Word) : (putBank b o v s).bankCursor = s.bankCursor := rfl
@[simp] theorem putBank_phase (b : BankIdx) (o : Nat) (v : Word) : (putBank b o v s).phase = s.phase := rfl
@[simp] theorem putBank_hdrReg (b : BankIdx) (o : Nat) (v : Word) : (putBank b o v s).hdrReg = s.hdrReg := rfl
@[simp] theorem putBank_ftrReg (b : BankIdx) (o : Nat) (v : Word) : (putBank b o v s).ftrReg = s.ftrReg := rfl
@[simp] theorem putBank_cntReg (b : BankIdx) (o : Nat) (v : Word) : (putBank b o v s).cntReg = s.cntReg := rfl
@[simp] theorem putBank_payIdx (b : BankIdx) (o : Nat) (v : Word) : (putBank b o v s).payIdx = s.payIdx := rfl
@[simp] theorem putBank_wr (b : BankIdx) (o : Nat) (v : Word) : (putBank b o v s).wr = s.wr := rfl
@[simp] theorem putBank_rd (b : BankIdx) (o : Nat) (v : Word) : (putBank b o v s).rd = s.rd := rfl
@[simp] theorem putBank_occupied (b : BankIdx) (o : Nat) (v : Word) : (putBank b o v s).occupied = s.occupied := rfl
@[simp] theorem putBank_bank (b : BankIdx) (o : Nat) (v : Word) : (putBank b o v s).bank = Memory.put s.bank (bankAddr b o) v := rfl
@[simp] theorem putBank_staging (b : BankIdx) (o : Nat) (v : Word) : (putBank b o v s).staging = s.staging := rfl
@[simp] theorem putBank_mailbox (b : BankIdx) (o : Nat) (v : Word) : (putBank b o v s).mailbox = s.mailbox := rfl
@[simp] theorem putBank_lineLevel (b : BankIdx) (o : Nat) (v : Word) : (putBank b o v s).lineLevel = s.lineLevel := rfl
@[simp] theorem putBank_edgeLatch (b : BankIdx) (o : Nat) (v : Word) : (putBank b o v s).edgeLatch = s.edgeLatch := rfl
@[simp] theorem putBank_startEn (b : BankIdx) (o : Nat) (v : Word) : (putBank b o v s).startEn = s.startEn := rfl
@[simp] theorem putBank_ind0 (b : BankIdx) (o : Nat) (v : Word) : (putBank b o v s).ind0 = s.ind0 := rfl
@[simp] theorem putBank_ind1 (b : BankIdx) (o : Nat) (v : Word) : (putBank b o v s).ind1 = s.ind1 := rfl
@[simp] theorem putBank_fltStagingOvf (b : BankIdx) (o : Nat) (v : Word) : (putBank b o v s).fltStagingOvf = s.fltStagingOvf := rfl
@[simp] theorem putBank_fltBankCount (b : BankIdx) (o : Nat) (v : Word) : (putBank b o v s).fltBankCount = s.fltBankCount := rfl
@[simp] theorem putBank_fltIdMismatch (b : BankIdx) (o : Nat) (v : Word) : (putBank b o v s).fltIdMismatch = s.fltIdMismatch := rfl
@[simp] theorem putBank_cfg (b : BankIdx) (o : Nat) (v : Word) : (putBank b o v s).cfg = s.cfg := rfl
@[simp] theorem putBank_script (b : BankIdx) (o : Nat) (v : Word) : (putBank b o v s).script = s.script := rfl
@[simp] theorem putBank_tick (b : BankIdx) (o : Nat) (v : Word) : (putBank b o v s).tick = s.tick := rfl
@[simp] theorem putBank_wait (b : BankIdx) (o : Nat) (v : Word) : (putBank b o v s).wait = s.wait := rfl
@[simp] theorem putBank_ret (b : BankIdx) (o : Nat) (v : Word) : (putBank b o v s).ret = s.ret := rfl
@[simp] theorem putBank_history (b : BankIdx) (o : Nat) (v : Word) : (putBank b o v s).history = s.history := rfl

/-! ## `putStaging` -/

@[simp] theorem putStaging_spillState (a : Nat) (v : Word) : (putStaging a v s).spillState = s.spillState := rfl
@[simp] theorem putStaging_bankCursor (a : Nat) (v : Word) : (putStaging a v s).bankCursor = s.bankCursor := rfl
@[simp] theorem putStaging_phase (a : Nat) (v : Word) : (putStaging a v s).phase = s.phase := rfl
@[simp] theorem putStaging_hdrReg (a : Nat) (v : Word) : (putStaging a v s).hdrReg = s.hdrReg := rfl
@[simp] theorem putStaging_ftrReg (a : Nat) (v : Word) : (putStaging a v s).ftrReg = s.ftrReg := rfl
@[simp] theorem putStaging_cntReg (a : Nat) (v : Word) : (putStaging a v s).cntReg = s.cntReg := rfl
@[simp] theorem putStaging_payIdx (a : Nat) (v : Word) : (putStaging a v s).payIdx = s.payIdx := rfl
@[simp] theorem putStaging_wr (a : Nat) (v : Word) : (putStaging a v s).wr = s.wr := rfl
@[simp] theorem putStaging_rd (a : Nat) (v : Word) : (putStaging a v s).rd = s.rd := rfl
@[simp] theorem putStaging_occupied (a : Nat) (v : Word) : (putStaging a v s).occupied = s.occupied := rfl
@[simp] theorem putStaging_bank (a : Nat) (v : Word) : (putStaging a v s).bank = s.bank := rfl
@[simp] theorem putStaging_staging (a : Nat) (v : Word) : (putStaging a v s).staging = Memory.put s.staging a v := rfl
@[simp] theorem putStaging_mailbox (a : Nat) (v : Word) : (putStaging a v s).mailbox = s.mailbox := rfl
@[simp] theorem putStaging_lineLevel (a : Nat) (v : Word) : (putStaging a v s).lineLevel = s.lineLevel := rfl
@[simp] theorem putStaging_edgeLatch (a : Nat) (v : Word) : (putStaging a v s).edgeLatch = s.edgeLatch := rfl
@[simp] theorem putStaging_startEn (a : Nat) (v : Word) : (putStaging a v s).startEn = s.startEn := rfl
@[simp] theorem putStaging_ind0 (a : Nat) (v : Word) : (putStaging a v s).ind0 = s.ind0 := rfl
@[simp] theorem putStaging_ind1 (a : Nat) (v : Word) : (putStaging a v s).ind1 = s.ind1 := rfl
@[simp] theorem putStaging_fltStagingOvf (a : Nat) (v : Word) : (putStaging a v s).fltStagingOvf = s.fltStagingOvf := rfl
@[simp] theorem putStaging_fltBankCount (a : Nat) (v : Word) : (putStaging a v s).fltBankCount = s.fltBankCount := rfl
@[simp] theorem putStaging_fltIdMismatch (a : Nat) (v : Word) : (putStaging a v s).fltIdMismatch = s.fltIdMismatch := rfl
@[simp] theorem putStaging_cfg (a : Nat) (v : Word) : (putStaging a v s).cfg = s.cfg := rfl
@[simp] theorem putStaging_script (a : Nat) (v : Word) : (putStaging a v s).script = s.script := rfl
@[simp] theorem putStaging_tick (a : Nat) (v : Word) : (putStaging a v s).tick = s.tick := rfl
@[simp] theorem putStaging_wait (a : Nat) (v : Word) : (putStaging a v s).wait = s.wait := rfl
@[simp] theorem putStaging_ret (a : Nat) (v : Word) : (putStaging a v s).ret = s.ret := rfl
@[simp] theorem putStaging_history (a : Nat) (v : Word) : (putStaging a v s).history = s.history := rfl

/-! ## `putMailbox` -/

@[simp] theorem putMailbox_spillState (i : Nat) (v : Word) : (putMailbox i v s).spillState = s.spillState := rfl
@[simp] theorem putMailbox_bankCursor (i : Nat) (v : Word) : (putMailbox i v s).bankCursor = s.bankCursor := rfl
@[simp] theorem putMailbox_phase (i : Nat) (v : Word) : (putMailbox i v s).phase = s.phase := rfl
@[simp] theorem putMailbox_hdrReg (i : Nat) (v : Word) : (putMailbox i v s).hdrReg = s.hdrReg := rfl
@[simp] theorem putMailbox_ftrReg (i : Nat) (v : Word) : (putMailbox i v s).ftrReg = s.ftrReg := rfl
@[simp] theorem putMailbox_cntReg (i : Nat) (v : Word) : (putMailbox i v s).cntReg = s.cntReg := rfl
@[simp] theorem putMailbox_payIdx (i : Nat) (v : Word) : (putMailbox i v s).payIdx = s.payIdx := rfl
@[simp] theorem putMailbox_wr (i : Nat) (v : Word) : (putMailbox i v s).wr = s.wr := rfl
@[simp] theorem putMailbox_rd (i : Nat) (v : Word) : (putMailbox i v s).rd = s.rd := rfl
@[simp] theorem putMailbox_occupied (i : Nat) (v : Word) : (putMailbox i v s).occupied = s.occupied := rfl
@[simp] theorem putMailbox_bank (i : Nat) (v : Word) : (putMailbox i v s).bank = s.bank := rfl
@[simp] theorem putMailbox_staging (i : Nat) (v : Word) : (putMailbox i v s).staging = s.staging := rfl
@[simp] theorem putMailbox_mailbox (i : Nat) (v : Word) : (putMailbox i v s).mailbox = Memory.put s.mailbox i v := rfl
@[simp] theorem putMailbox_lineLevel (i : Nat) (v : Word) : (putMailbox i v s).lineLevel = s.lineLevel := rfl
@[simp] theorem putMailbox_edgeLatch (i : Nat) (v : Word) : (putMailbox i v s).edgeLatch = s.edgeLatch := rfl
@[simp] theorem putMailbox_startEn (i : Nat) (v : Word) : (putMailbox i v s).startEn = s.startEn := rfl
@[simp] theorem putMailbox_ind0 (i : Nat) (v : Word) : (putMailbox i v s).ind0 = s.ind0 := rfl
@[simp] theorem putMailbox_ind1 (i : Nat) (v : Word) : (putMailbox i v s).ind1 = s.ind1 := rfl
@[simp] theorem putMailbox_fltStagingOvf (i : Nat) (v : Word) : (putMailbox i v s).fltStagingOvf = s.fltStagingOvf := rfl
@[simp] theorem putMailbox_fltBankCount (i : Nat) (v : Word) : (putMailbox i v s).fltBankCount = s.fltBankCount := rfl
@[simp] theorem putMailbox_fltIdMismatch (i : Nat) (v : Word) : (putMailbox i v s).fltIdMismatch = s.fltIdMismatch := rfl
@[simp] theorem putMailbox_cfg (i : Nat) (v : Word) : (putMailbox i v s).cfg = s.cfg := rfl
@[simp] theorem putMailbox_script (i : Nat) (v : Word) : (putMailbox i v s).script = s.script := rfl
@[simp] theorem putMailbox_tick (i : Nat) (v : Word) : (putMailbox i v s).tick = s.tick := rfl
@[simp] theorem putMailbox_wait (i : Nat) (v : Word) : (putMailbox i v s).wait = s.wait := rfl
@[simp] theorem putMailbox_ret (i : Nat) (v : Word) : (putMailbox i v s).ret = s.ret := rfl
@[simp] theorem putMailbox_history (i : Nat) (v : Word) : (putMailbox i v s).history = s.history := rfl

/-! ## `clearHeader` -/

@[simp] theorem clearHeader_spillState (b : BankIdx) : (clearHeader b s).spillState = s.spillState := rfl
@[simp] theorem clearHeader_bankCursor (b : BankIdx) : (clearHeader b s).bankCursor = s.bankCursor := rfl
@[simp] theorem clearHeader_phase (b : BankIdx) : (clearHeader b s).phase = s.phase := rfl
@[simp] theorem clearHeader_hdrReg (b : BankIdx) : (clearHeader b s).hdrReg = s.hdrReg := rfl
@[simp] theorem clearHeader_ftrReg (b : BankIdx) : (clearHeader b s).ftrReg = s.ftrReg := rfl
@[simp] theorem clearHeader_cntReg (b : BankIdx) : (clearHeader b s).cntReg = s.cntReg := rfl
@[simp] theorem clearHeader_payIdx (b : BankIdx) : (clearHeader b s).payIdx = s.payIdx := rfl
@[simp] theorem clearHeader_wr (b : BankIdx) : (clearHeader b s).wr = s.wr := rfl
@[simp] theorem clearHeader_rd (b : BankIdx) : (clearHeader b s).rd = s.rd := rfl
@[simp] theorem clearHeader_occupied (b : BankIdx) : (clearHeader b s).occupied = s.occupied := rfl
@[simp] theorem clearHeader_bank (b : BankIdx) : (clearHeader b s).bank = Memory.put s.bank (bankAddr b 0) 0#32 := rfl
@[simp] theorem clearHeader_staging (b : BankIdx) : (clearHeader b s).staging = s.staging := rfl
@[simp] theorem clearHeader_mailbox (b : BankIdx) : (clearHeader b s).mailbox = s.mailbox := rfl
@[simp] theorem clearHeader_lineLevel (b : BankIdx) : (clearHeader b s).lineLevel = s.lineLevel := rfl
@[simp] theorem clearHeader_edgeLatch (b : BankIdx) : (clearHeader b s).edgeLatch = s.edgeLatch := rfl
@[simp] theorem clearHeader_startEn (b : BankIdx) : (clearHeader b s).startEn = s.startEn := rfl
@[simp] theorem clearHeader_ind0 (b : BankIdx) : (clearHeader b s).ind0 = s.ind0 := rfl
@[simp] theorem clearHeader_ind1 (b : BankIdx) : (clearHeader b s).ind1 = s.ind1 := rfl
@[simp] theorem clearHeader_fltStagingOvf (b : BankIdx) : (clearHeader b s).fltStagingOvf = s.fltStagingOvf := rfl
@[simp] theorem clearHeader_fltBankCount (b : BankIdx) : (clearHeader b s).fltBankCount = s.fltBankCount := rfl
@[simp] theorem clearHeader_fltIdMismatch (b : BankIdx) : (clearHeader b s).fltIdMismatch = s.fltIdMismatch := rfl
@[simp] theorem clearHeader_cfg (b : BankIdx) : (clearHeader b s).cfg = s.cfg := rfl
@[simp] theorem clearHeader_script (b : BankIdx) : (clearHeader b s).script = s.script := rfl
@[simp] theorem clearHeader_tick (b : BankIdx) : (clearHeader b s).tick = s.tick := rfl
@[simp] theorem clearHeader_wait (b : BankIdx) : (clearHeader b s).wait = s.wait := rfl
@[simp] theorem clearHeader_ret (b : BankIdx) : (clearHeader b s).ret = s.ret := rfl
@[simp] theorem clearHeader_history (b : BankIdx) : (clearHeader b s).history = s.history := rfl

/-! ## `resetCursors` -/

@[simp] theorem resetCursors_spillState : (resetCursors s).spillState = s.spillState := rfl
@[simp] theorem resetCursors_bankCursor : (resetCursors s).bankCursor = s.bankCursor := rfl
@[simp] theorem resetCursors_phase : (resetCursors s).phase = s.phase := rfl
@[simp] theorem resetCursors_hdrReg : (resetCursors s).hdrReg = s.hdrReg := rfl
@[simp] theorem resetCursors_ftrReg : (resetCursors s).ftrReg = s.ftrReg := rfl
@[simp] theorem resetCursors_cntReg : (resetCursors s).cntReg = s.cntReg := rfl
@[simp] theorem resetCursors_payIdx : (resetCursors s).payIdx = s.payIdx := rfl
@[simp] theorem resetCursors_wr : (resetCursors s).wr = 0 := rfl
@[simp] theorem resetCursors_rd : (resetCursors s).rd = 0 := rfl
@[simp] theorem resetCursors_occupied : (resetCursors s).occupied = 0 := rfl
@[simp] theorem resetCursors_bank : (resetCursors s).bank = s.bank := rfl
@[simp] theorem resetCursors_staging : (resetCursors s).staging = s.staging := rfl
@[simp] theorem resetCursors_mailbox : (resetCursors s).mailbox = s.mailbox := rfl
@[simp] theorem resetCursors_lineLevel : (resetCursors s).lineLevel = s.lineLevel := rfl
@[simp] theorem resetCursors_edgeLatch : (resetCursors s).edgeLatch = s.edgeLatch := rfl
@[simp] theorem resetCursors_startEn : (resetCursors s).startEn = s.startEn := rfl
@[simp] theorem resetCursors_ind0 : (resetCursors s).ind0 = s.ind0 := rfl
@[simp] theorem resetCursors_ind1 : (resetCursors s).ind1 = s.ind1 := rfl
@[simp] theorem resetCursors_fltStagingOvf : (resetCursors s).fltStagingOvf = s.fltStagingOvf := rfl
@[simp] theorem resetCursors_fltBankCount : (resetCursors s).fltBankCount = s.fltBankCount := rfl
@[simp] theorem resetCursors_fltIdMismatch : (resetCursors s).fltIdMismatch = s.fltIdMismatch := rfl
@[simp] theorem resetCursors_cfg : (resetCursors s).cfg = s.cfg := rfl
@[simp] theorem resetCursors_script : (resetCursors s).script = s.script := rfl
@[simp] theorem resetCursors_tick : (resetCursors s).tick = s.tick := rfl
@[simp] theorem resetCursors_wait : (resetCursors s).wait = s.wait := rfl
@[simp] theorem resetCursors_ret : (resetCursors s).ret = s.ret := rfl
@[simp] theorem resetCursors_history : (resetCursors s).history = s.history := rfl

/-! ## `resumeIngest` -/

@[simp] theorem resumeIngest_spillState : (resumeIngest s).spillState = s.spillState := rfl
@[simp] theorem resumeIngest_bankCursor : (resumeIngest s).bankCursor = s.bankCursor := rfl
@[simp] theorem resumeIngest_phase : (resumeIngest s).phase = .scan := rfl
@[simp] theorem resumeIngest_hdrReg : (resumeIngest s).hdrReg = s.hdrReg := rfl
@[simp] theorem resumeIngest_ftrReg : (resumeIngest s).ftrReg = s.ftrReg := rfl
@[simp] theorem resumeIngest_cntReg : (resumeIngest s).cntReg = s.cntReg := rfl
@[simp] theorem resumeIngest_payIdx : (resumeIngest s).payIdx = s.payIdx := rfl
@[simp] theorem resumeIngest_wr : (resumeIngest s).wr = s.wr := rfl
@[simp] theorem resumeIngest_rd : (resumeIngest s).rd = s.rd := rfl
@[simp] theorem resumeIngest_occupied : (resumeIngest s).occupied = s.occupied := rfl
@[simp] theorem resumeIngest_bank : (resumeIngest s).bank = s.bank := rfl
@[simp] theorem resumeIngest_staging : (resumeIngest s).staging = s.staging := rfl
@[simp] theorem resumeIngest_mailbox : (resumeIngest s).mailbox = s.mailbox := rfl
@[simp] theorem resumeIngest_lineLevel : (resumeIngest s).lineLevel = s.lineLevel := rfl
@[simp] theorem resumeIngest_edgeLatch : (resumeIngest s).edgeLatch = s.edgeLatch := rfl
@[simp] theorem resumeIngest_startEn : (resumeIngest s).startEn = s.startEn := rfl
@[simp] theorem resumeIngest_ind0 : (resumeIngest s).ind0 = s.ind0 := rfl
@[simp] theorem resumeIngest_ind1 : (resumeIngest s).ind1 = s.ind1 := rfl
@[simp] theorem resumeIngest_fltStagingOvf : (resumeIngest s).fltStagingOvf = s.fltStagingOvf := rfl
@[simp] theorem resumeIngest_fltBankCount : (resumeIngest s).fltBankCount = s.fltBankCount := rfl
@[simp] theorem resumeIngest_fltIdMismatch : (resumeIngest s).fltIdMismatch = s.fltIdMismatch := rfl
@[simp] theorem resumeIngest_cfg : (resumeIngest s).cfg = s.cfg := rfl
@[simp] theorem resumeIngest_script : (resumeIngest s).script = s.script := rfl
@[simp] theorem resumeIngest_tick : (resumeIngest s).tick = s.tick := rfl
@[simp] theorem resumeIngest_wait : (resumeIngest s).wait = s.wait := rfl
@[simp] theorem resumeIngest_ret : (resumeIngest s).ret = s.ret := rfl
@[simp] theorem resumeIngest_history : (resumeIngest s).history = s.history := rfl

/-! ## `acknowledge` -/

@[simp] theorem acknowledge_spillState : (acknowledge s).spillState = s.spillState := rfl
@[simp] theorem acknowledge_bankCursor : (acknowledge s).bankCursor = s.bankCursor := rfl
@[simp] theorem acknowledge_phase : (acknowledge s).phase = s.phase := rfl
@[simp] theorem acknowledge_hdrReg : (acknowledge s).hdrReg = s.hdrReg := rfl
@[simp] theorem acknowledge_ftrReg : (acknowledge s).ftrReg = s.ftrReg := rfl
@[simp] theorem acknowledge_cntReg : (acknowledge s).cntReg = s.cntReg := rfl
@[simp] theorem acknowledge_payIdx : (acknowledge s).payIdx = s.payIdx := rfl
@[simp] theorem acknowledge_wr : (acknowledge s).wr = s.wr := rfl
@[simp] theorem acknowledge_rd : (acknowledge s).rd = s.rd := rfl
@[simp] theorem acknowledge_occupied : (acknowledge s).occupied = s.occupied := rfl
@[simp] theorem acknowledge_bank : (acknowledge s).bank = s.bank := rfl
@[simp] theorem acknowledge_staging : (acknowledge s).staging = s.staging := rfl
@[simp] theorem acknowledge_mailbox : (acknowledge s).mailbox = s.mailbox := rfl
@[simp] theorem acknowledge_lineLevel : (acknowledge s).lineLevel = s.lineLevel := rfl
@[simp] theorem acknowledge_edgeLatch : (acknowledge s).edgeLatch = false := rfl
@[simp] theorem acknowledge_startEn : (acknowledge s).startEn = s.startEn := rfl
@[simp] theorem acknowledge_ind0 : (acknowledge s).ind0 = s.ind0 := rfl
@[simp] theorem acknowledge_ind1 : (acknowledge s).ind1 = s.ind1 := rfl
@[simp] theorem acknowledge_fltStagingOvf : (acknowledge s).fltStagingOvf = s.fltStagingOvf := rfl
@[simp] theorem acknowledge_fltBankCount : (acknowledge s).fltBankCount = s.fltBankCount := rfl
@[simp] theorem acknowledge_fltIdMismatch : (acknowledge s).fltIdMismatch = s.fltIdMismatch := rfl
@[simp] theorem acknowledge_cfg : (acknowledge s).cfg = s.cfg := rfl
@[simp] theorem acknowledge_script : (acknowledge s).script = s.script := rfl
@[simp] theorem acknowledge_tick : (acknowledge s).tick = s.tick := rfl
@[simp] theorem acknowledge_wait : (acknowledge s).wait = s.wait := rfl
@[simp] theorem acknowledge_ret : (acknowledge s).ret = s.ret := rfl
@[simp] theorem acknowledge_history : (acknowledge s).history = s.history := rfl

/-! ## `record` -/

@[simp] theorem record_spillState (e : Event) : (record e s).spillState = s.spillState := rfl
@[simp] theorem record_bankCursor (e : Event) : (record e s).bankCursor = s.bankCursor := rfl
@[simp] theorem record_phase (e : Event) : (record e s).phase = s.phase := rfl
@[simp] theorem record_hdrReg (e : Event) : (record e s).hdrReg = s.hdrReg := rfl
@[simp] theorem record_ftrReg (e : Event) : (record e s).ftrReg = s.ftrReg := rfl
@[simp] theorem record_cntReg (e : Event) : (record e s).cntReg = s.cntReg := rfl
@[simp] theorem record_payIdx (e : Event) : (record e s).payIdx = s.payIdx := rfl
@[simp] theorem record_wr (e : Event) : (record e s).wr = s.wr := rfl
@[simp] theorem record_rd (e : Event) : (record e s).rd = s.rd := rfl
@[simp] theorem record_occupied (e : Event) : (record e s).occupied = s.occupied := rfl
@[simp] theorem record_bank (e : Event) : (record e s).bank = s.bank := rfl
@[simp] theorem record_staging (e : Event) : (record e s).staging = s.staging := rfl
@[simp] theorem record_mailbox (e : Event) : (record e s).mailbox = s.mailbox := rfl
@[simp] theorem record_lineLevel (e : Event) : (record e s).lineLevel = s.lineLevel := rfl
@[simp] theorem record_edgeLatch (e : Event) : (record e s).edgeLatch = s.edgeLatch := rfl
@[simp] theorem record_startEn (e : Event) : (record e s).startEn = s.startEn := rfl
@[simp] theorem record_ind0 (e : Event) : (record e s).ind0 = s.ind0 := rfl
@[simp] theorem record_ind1 (e : Event) : (record e s).ind1 = s.ind1 := rfl
@[simp] theorem record_fltStagingOvf (e : Event) : (record e s).fltStagingOvf = s.fltStagingOvf := rfl
@[simp] theorem record_fltBankCount (e : Event) : (record e s).fltBankCount = s.fltBankCount := rfl
@[simp] theorem record_fltIdMismatch (e : Event) : (record e s).fltIdMismatch = s.fltIdMismatch := rfl
@[simp] theorem record_cfg (e : Event) : (record e s).cfg = s.cfg := rfl
@[simp] theorem record_script (e : Event) : (record e s).script = s.script := rfl
@[simp] theorem record_tick (e : Event) : (record e s).tick = s.tick := rfl
@[simp] theorem record_wait (e : Event) : (record e s).wait = s.wait := rfl
@[simp] theorem record_ret (e : Event) : (record e s).ret = s.ret := rfl
@[simp] theorem record_history (e : Event) : (record e s).history = .step e :: s.history := rfl

/-! ## `showBeamOn` -/

@[simp] theorem showBeamOn_spillState : (showBeamOn s).spillState = s.spillState := rfl
@[simp] theorem showBeamOn_bankCursor : (showBeamOn s).bankCursor = s.bankCursor := rfl
@[simp] theorem showBeamOn_phase : (showBeamOn s).phase = s.phase := rfl
@[simp] theorem showBeamOn_hdrReg : (showBeamOn s).hdrReg = s.hdrReg := rfl
@[simp] theorem showBeamOn_ftrReg : (showBeamOn s).ftrReg = s.ftrReg := rfl
@[simp] theorem showBeamOn_cntReg : (showBeamOn s).cntReg = s.cntReg := rfl
@[simp] theorem showBeamOn_payIdx : (showBeamOn s).payIdx = s.payIdx := rfl
@[simp] theorem showBeamOn_wr : (showBeamOn s).wr = s.wr := rfl
@[simp] theorem showBeamOn_rd : (showBeamOn s).rd = s.rd := rfl
@[simp] theorem showBeamOn_occupied : (showBeamOn s).occupied = s.occupied := rfl
@[simp] theorem showBeamOn_bank : (showBeamOn s).bank = s.bank := rfl
@[simp] theorem showBeamOn_staging : (showBeamOn s).staging = s.staging := rfl
@[simp] theorem showBeamOn_mailbox : (showBeamOn s).mailbox = s.mailbox := rfl
@[simp] theorem showBeamOn_lineLevel : (showBeamOn s).lineLevel = s.lineLevel := rfl
@[simp] theorem showBeamOn_edgeLatch : (showBeamOn s).edgeLatch = s.edgeLatch := rfl
@[simp] theorem showBeamOn_startEn : (showBeamOn s).startEn = s.startEn := rfl
@[simp] theorem showBeamOn_ind0 : (showBeamOn s).ind0 = true := rfl
@[simp] theorem showBeamOn_ind1 : (showBeamOn s).ind1 = false := rfl
@[simp] theorem showBeamOn_fltStagingOvf : (showBeamOn s).fltStagingOvf = s.fltStagingOvf := rfl
@[simp] theorem showBeamOn_fltBankCount : (showBeamOn s).fltBankCount = s.fltBankCount := rfl
@[simp] theorem showBeamOn_fltIdMismatch : (showBeamOn s).fltIdMismatch = s.fltIdMismatch := rfl
@[simp] theorem showBeamOn_cfg : (showBeamOn s).cfg = s.cfg := rfl
@[simp] theorem showBeamOn_script : (showBeamOn s).script = s.script := rfl
@[simp] theorem showBeamOn_tick : (showBeamOn s).tick = s.tick := rfl
@[simp] theorem showBeamOn_wait : (showBeamOn s).wait = s.wait := rfl
@[simp] theorem showBeamOn_ret : (showBeamOn s).ret = s.ret := rfl
@[simp] theorem showBeamOn_history : (showBeamOn s).history = s.history := rfl

/-! ## `showBeamOff` -/

@[simp] theorem showBeamOff_spillState : (showBeamOff s).spillState = s.spillState := rfl
@[simp] theorem showBeamOff_bankCursor : (showBeamOff s).bankCursor = s.bankCursor := rfl
@[simp] theorem showBeamOff_phase : (showBeamOff s).phase = s.phase := rfl
@[simp] theorem showBeamOff_hdrReg : (showBeamOff s).hdrReg = s.hdrReg := rfl
@[simp] theorem showBeamOff_ftrReg : (showBeamOff s).ftrReg = s.ftrReg := rfl
@[simp] theorem showBeamOff_cntReg : (showBeamOff s).cntReg = s.cntReg := rfl
@[simp] theorem showBeamOff_payIdx : (showBeamOff s).payIdx = s.payIdx := rfl
@[simp] theorem showBeamOff_wr : (showBeamOff s).wr = s.wr := rfl
@[simp] theorem showBeamOff_rd : (showBeamOff s).rd = s.rd := rfl
@[simp] theorem showBeamOff_occupied : (showBeamOff s).occupied = s.occupied := rfl
@[simp] theorem showBeamOff_bank : (showBeamOff s).bank = s.bank := rfl
@[simp] theorem showBeamOff_staging : (showBeamOff s).staging = s.staging := rfl
@[simp] theorem showBeamOff_mailbox : (showBeamOff s).mailbox = s.mailbox := rfl
@[simp] theorem showBeamOff_lineLevel : (showBeamOff s).lineLevel = s.lineLevel := rfl
@[simp] theorem showBeamOff_edgeLatch : (showBeamOff s).edgeLatch = s.edgeLatch := rfl
@[simp] theorem showBeamOff_startEn : (showBeamOff s).startEn = s.startEn := rfl
@[simp] theorem showBeamOff_ind0 : (showBeamOff s).ind0 = false := rfl
@[simp] theorem showBeamOff_ind1 : (showBeamOff s).ind1 = true := rfl
@[simp] theorem showBeamOff_fltStagingOvf : (showBeamOff s).fltStagingOvf = s.fltStagingOvf := rfl
@[simp] theorem showBeamOff_fltBankCount : (showBeamOff s).fltBankCount = s.fltBankCount := rfl
@[simp] theorem showBeamOff_fltIdMismatch : (showBeamOff s).fltIdMismatch = s.fltIdMismatch := rfl
@[simp] theorem showBeamOff_cfg : (showBeamOff s).cfg = s.cfg := rfl
@[simp] theorem showBeamOff_script : (showBeamOff s).script = s.script := rfl
@[simp] theorem showBeamOff_tick : (showBeamOff s).tick = s.tick := rfl
@[simp] theorem showBeamOff_wait : (showBeamOff s).wait = s.wait := rfl
@[simp] theorem showBeamOff_ret : (showBeamOff s).ret = s.ret := rfl
@[simp] theorem showBeamOff_history : (showBeamOff s).history = s.history := rfl

/-! ## `showDrained` -/

@[simp] theorem showDrained_spillState : (showDrained s).spillState = s.spillState := rfl
@[simp] theorem showDrained_bankCursor : (showDrained s).bankCursor = s.bankCursor := rfl
@[simp] theorem showDrained_phase : (showDrained s).phase = s.phase := rfl
@[simp] theorem showDrained_hdrReg : (showDrained s).hdrReg = s.hdrReg := rfl
@[simp] theorem showDrained_ftrReg : (showDrained s).ftrReg = s.ftrReg := rfl
@[simp] theorem showDrained_cntReg : (showDrained s).cntReg = s.cntReg := rfl
@[simp] theorem showDrained_payIdx : (showDrained s).payIdx = s.payIdx := rfl
@[simp] theorem showDrained_wr : (showDrained s).wr = s.wr := rfl
@[simp] theorem showDrained_rd : (showDrained s).rd = s.rd := rfl
@[simp] theorem showDrained_occupied : (showDrained s).occupied = s.occupied := rfl
@[simp] theorem showDrained_bank : (showDrained s).bank = s.bank := rfl
@[simp] theorem showDrained_staging : (showDrained s).staging = s.staging := rfl
@[simp] theorem showDrained_mailbox : (showDrained s).mailbox = s.mailbox := rfl
@[simp] theorem showDrained_lineLevel : (showDrained s).lineLevel = s.lineLevel := rfl
@[simp] theorem showDrained_edgeLatch : (showDrained s).edgeLatch = s.edgeLatch := rfl
@[simp] theorem showDrained_startEn : (showDrained s).startEn = s.startEn := rfl
@[simp] theorem showDrained_ind0 : (showDrained s).ind0 = true := rfl
@[simp] theorem showDrained_ind1 : (showDrained s).ind1 = true := rfl
@[simp] theorem showDrained_fltStagingOvf : (showDrained s).fltStagingOvf = s.fltStagingOvf := rfl
@[simp] theorem showDrained_fltBankCount : (showDrained s).fltBankCount = s.fltBankCount := rfl
@[simp] theorem showDrained_fltIdMismatch : (showDrained s).fltIdMismatch = s.fltIdMismatch := rfl
@[simp] theorem showDrained_cfg : (showDrained s).cfg = s.cfg := rfl
@[simp] theorem showDrained_script : (showDrained s).script = s.script := rfl
@[simp] theorem showDrained_tick : (showDrained s).tick = s.tick := rfl
@[simp] theorem showDrained_wait : (showDrained s).wait = s.wait := rfl
@[simp] theorem showDrained_ret : (showDrained s).ret = s.ret := rfl
@[simp] theorem showDrained_history : (showDrained s).history = s.history := rfl

/-! ## `setSpill` -/

@[simp] theorem setSpill_spillState (x : SpillState) : (setSpill x s).spillState = x := by unfold setSpill; split <;> simp_all
@[simp] theorem setSpill_bankCursor (x : SpillState) : (setSpill x s).bankCursor = s.bankCursor := by unfold setSpill; split <;> simp_all
@[simp] theorem setSpill_phase (x : SpillState) : (setSpill x s).phase = s.phase := by unfold setSpill; split <;> simp_all
@[simp] theorem setSpill_hdrReg (x : SpillState) : (setSpill x s).hdrReg = s.hdrReg := by unfold setSpill; split <;> simp_all
@[simp] theorem setSpill_ftrReg (x : SpillState) : (setSpill x s).ftrReg = s.ftrReg := by unfold setSpill; split <;> simp_all
@[simp] theorem setSpill_cntReg (x : SpillState) : (setSpill x s).cntReg = s.cntReg := by unfold setSpill; split <;> simp_all
@[simp] theorem setSpill_payIdx (x : SpillState) : (setSpill x s).payIdx = s.payIdx := by unfold setSpill; split <;> simp_all
@[simp] theorem setSpill_wr (x : SpillState) : (setSpill x s).wr = s.wr := by unfold setSpill; split <;> simp_all
@[simp] theorem setSpill_rd (x : SpillState) : (setSpill x s).rd = s.rd := by unfold setSpill; split <;> simp_all
@[simp] theorem setSpill_occupied (x : SpillState) : (setSpill x s).occupied = s.occupied := by unfold setSpill; split <;> simp_all
@[simp] theorem setSpill_bank (x : SpillState) : (setSpill x s).bank = s.bank := by unfold setSpill; split <;> simp_all
@[simp] theorem setSpill_staging (x : SpillState) : (setSpill x s).staging = s.staging := by unfold setSpill; split <;> simp_all
@[simp] theorem setSpill_mailbox (x : SpillState) : (setSpill x s).mailbox = s.mailbox := by unfold setSpill; split <;> simp_all
@[simp] theorem setSpill_lineLevel (x : SpillState) : (setSpill x s).lineLevel = s.lineLevel := by unfold setSpill; split <;> simp_all
@[simp] theorem setSpill_edgeLatch (x : SpillState) : (setSpill x s).edgeLatch = s.edgeLatch := by unfold setSpill; split <;> simp_all
@[simp] theorem setSpill_startEn (x : SpillState) : (setSpill x s).startEn = s.startEn := by unfold setSpill; split <;> simp_all
@[simp] theorem setSpill_ind0 (x : SpillState) : (setSpill x s).ind0 = s.ind0 := by unfold setSpill; split <;> simp_all
@[simp] theorem setSpill_ind1 (x : SpillState) : (setSpill x s).ind1 = s.ind1 := by unfold setSpill; split <;> simp_all
@[simp] theorem setSpill_fltStagingOvf (x : SpillState) : (setSpill x s).fltStagingOvf = s.fltStagingOvf := by unfold setSpill; split <;> simp_all
@[simp] theorem setSpill_fltBankCount (x : SpillState) : (setSpill x s).fltBankCount = s.fltBankCount := by unfold setSpill; split <;> simp_all
@[simp] theorem setSpill_fltIdMismatch (x : SpillState) : (setSpill x s).fltIdMismatch = s.fltIdMismatch := by unfold setSpill; split <;> simp_all
@[simp] theorem setSpill_cfg (x : SpillState) : (setSpill x s).cfg = s.cfg := by unfold setSpill; split <;> simp_all
@[simp] theorem setSpill_script (x : SpillState) : (setSpill x s).script = s.script := by unfold setSpill; split <;> simp_all
@[simp] theorem setSpill_tick (x : SpillState) : (setSpill x s).tick = s.tick := by unfold setSpill; split <;> simp_all
@[simp] theorem setSpill_wait (x : SpillState) : (setSpill x s).wait = s.wait := by unfold setSpill; split <;> simp_all
@[simp] theorem setSpill_ret (x : SpillState) : (setSpill x s).ret = s.ret := by unfold setSpill; split <;> simp_all

/-! ## `raise` -/

@[simp] theorem raise_spillState (c : Condition) : (raise c s).spillState = s.spillState := by cases c <;> rfl
@[simp] theorem raise_bankCursor (c : Condition) : (raise c s).bankCursor = s.bankCursor := by cases c <;> rfl
@[simp] theorem raise_hdrReg (c : Condition) : (raise c s).hdrReg = s.hdrReg := by cases c <;> rfl
@[simp] theorem raise_ftrReg (c : Condition) : (raise c s).ftrReg = s.ftrReg := by cases c <;> rfl
@[simp] theorem raise_cntReg (c : Condition) : (raise c s).cntReg = s.cntReg := by cases c <;> rfl
@[simp] theorem raise_payIdx (c : Condition) : (raise c s).payIdx = s.payIdx := by cases c <;> rfl
@[simp] theorem raise_wr (c : Condition) : (raise c s).wr = s.wr := by cases c <;> rfl
@[simp] theorem raise_rd (c : Condition) : (raise c s).rd = s.rd := by cases c <;> rfl
@[simp] theorem raise_occupied (c : Condition) : (raise c s).occupied = s.occupied := by cases c <;> rfl
@[simp] theorem raise_bank (c : Condition) : (raise c s).bank = s.bank := by cases c <;> rfl
@[simp] theorem raise_staging (c : Condition) : (raise c s).staging = s.staging := by cases c <;> rfl
@[simp] theorem raise_mailbox (c : Condition) : (raise c s).mailbox = s.mailbox := by cases c <;> rfl
@[simp] theorem raise_lineLevel (c : Condition) : (raise c s).lineLevel = s.lineLevel := by cases c <;> rfl
@[simp] theorem raise_edgeLatch (c : Condition) : (raise c s).edgeLatch = s.edgeLatch := by cases c <;> rfl
@[simp] theorem raise_startEn (c : Condition) : (raise c s).startEn = s.startEn := by cases c <;> rfl
@[simp] theorem raise_ind0 (c : Condition) : (raise c s).ind0 = s.ind0 := by cases c <;> rfl
@[simp] theorem raise_ind1 (c : Condition) : (raise c s).ind1 = s.ind1 := by cases c <;> rfl
@[simp] theorem raise_cfg (c : Condition) : (raise c s).cfg = s.cfg := by cases c <;> rfl
@[simp] theorem raise_script (c : Condition) : (raise c s).script = s.script := by cases c <;> rfl
@[simp] theorem raise_tick (c : Condition) : (raise c s).tick = s.tick := by cases c <;> rfl
@[simp] theorem raise_wait (c : Condition) : (raise c s).wait = s.wait := by cases c <;> rfl
@[simp] theorem raise_ret (c : Condition) : (raise c s).ret = s.ret := by cases c <;> rfl
@[simp] theorem raise_history (c : Condition) : (raise c s).history = s.history := by cases c <;> rfl

/-! ## `loseRecord` -/

@[simp] theorem loseRecord_spillState : (loseRecord s).spillState = s.spillState := rfl
@[simp] theorem loseRecord_bankCursor : (loseRecord s).bankCursor = s.bankCursor := rfl
@[simp] theorem loseRecord_phase : (loseRecord s).phase = s.phase := rfl
@[simp] theorem loseRecord_hdrReg : (loseRecord s).hdrReg = Config.freeHdr s.tick := rfl
@[simp] theorem loseRecord_ftrReg : (loseRecord s).ftrReg = Config.freeFtr s.tick := rfl
@[simp] theorem loseRecord_cntReg : (loseRecord s).cntReg = Config.freeCnt s.tick % 2 ^ countWidth s.cfg := rfl
@[simp] theorem loseRecord_payIdx : (loseRecord s).payIdx = Config.freePay s.tick % 2 ^ countWidth s.cfg := rfl
@[simp] theorem loseRecord_wr : (loseRecord s).wr = s.wr := rfl
@[simp] theorem loseRecord_rd : (loseRecord s).rd = s.rd := rfl
@[simp] theorem loseRecord_occupied : (loseRecord s).occupied = s.occupied := rfl
@[simp] theorem loseRecord_bank : (loseRecord s).bank = s.bank := rfl
@[simp] theorem loseRecord_staging : (loseRecord s).staging = s.staging := rfl
@[simp] theorem loseRecord_mailbox : (loseRecord s).mailbox = s.mailbox := rfl
@[simp] theorem loseRecord_lineLevel : (loseRecord s).lineLevel = s.lineLevel := rfl
@[simp] theorem loseRecord_edgeLatch : (loseRecord s).edgeLatch = s.edgeLatch := rfl
@[simp] theorem loseRecord_startEn : (loseRecord s).startEn = s.startEn := rfl
@[simp] theorem loseRecord_ind0 : (loseRecord s).ind0 = s.ind0 := rfl
@[simp] theorem loseRecord_ind1 : (loseRecord s).ind1 = s.ind1 := rfl
@[simp] theorem loseRecord_fltStagingOvf : (loseRecord s).fltStagingOvf = s.fltStagingOvf := rfl
@[simp] theorem loseRecord_fltBankCount : (loseRecord s).fltBankCount = s.fltBankCount := rfl
@[simp] theorem loseRecord_fltIdMismatch : (loseRecord s).fltIdMismatch = s.fltIdMismatch := rfl
@[simp] theorem loseRecord_cfg : (loseRecord s).cfg = s.cfg := rfl
@[simp] theorem loseRecord_script : (loseRecord s).script = s.script := rfl
@[simp] theorem loseRecord_tick : (loseRecord s).tick = s.tick + 1 := rfl
@[simp] theorem loseRecord_wait : (loseRecord s).wait = s.wait := rfl
@[simp] theorem loseRecord_ret : (loseRecord s).ret = s.ret := rfl
@[simp] theorem loseRecord_history : (loseRecord s).history = s.history := rfl

/-! ## The condition a `raise` takes, flag by flag -/

@[simp] theorem raise_phase (c : Condition) : (raise c s).phase = if c = .idMismatch then s.phase else .halt := by
  cases c <;> rfl
@[simp] theorem raise_fltStagingOvf (c : Condition) :
    (raise c s).fltStagingOvf = (s.fltStagingOvf || decide (c = .stagingOverflow)) := by cases c <;> simp [raise]
@[simp] theorem raise_fltBankCount (c : Condition) :
    (raise c s).fltBankCount = (s.fltBankCount || decide (c = .bankCount)) := by cases c <;> simp [raise]
@[simp] theorem raise_fltIdMismatch (c : Condition) :
    (raise c s).fltIdMismatch = (s.fltIdMismatch || decide (c = .idMismatch)) := by cases c <;> simp [raise]

/-- The history entry of a write of `spill_state` (R33). -/
theorem setSpill_history (x : SpillState) :
    (setSpill x s).history = if s.spillState = x then s.history else .transition s.spillState x :: s.history := by
  unfold setSpill; split <;> rfl

end Sys2Proof.Machine
end

