-- ==== Sys2Proof/Laws/Memory.lean ====
section
/-! SUPPORT. The memory laws: a read after a write, and that every memory operation keeps the canonical form. -/

namespace Sys2Proof.Machine

/-! ## One space -/

theorem Memory.get_put (m : Memory) (a c : Nat) (v : Word) :
    Memory.get (Memory.put m a v) c = if c = a then some v else Memory.get m c := by
  induction m with
  | nil => simp [Memory.put, Memory.get, eq_comm]
  | cons cell rest ih =>
    obtain ⟨k, u⟩ := cell
    rcases Nat.lt_trichotomy a k with hlt | heq | hgt
    · by_cases h : c = a
      · subst h; simp [Memory.put, Memory.get, hlt]
      · have : a ≠ c := fun e => h e.symm
        simp [Memory.put, Memory.get, hlt, h, this]
    · subst heq
      by_cases h : c = a
      · simp [Memory.put, Memory.get, h]
      · have : a ≠ c := fun e => h e.symm
        simp [Memory.put, Memory.get, h, this]
    · have h1 : ¬ a < k := by omega
      have h2 : a ≠ k := by omega
      rw [Memory.put, if_neg h1, if_neg h2]
      by_cases h : k = c
      · have : c ≠ a := by omega
        simp [Memory.get, h, this]
      · simp [Memory.get, h, ih]

/-- A read after a write, at the place written and at every other (R54, R56). -/
theorem Memory.read_put (sp : Space) (m : Memory) (a c : Nat) (v : Word) :
    Memory.read sp (Memory.put m a v) c = if c = a then v else Memory.read sp m c := by
  unfold Memory.read
  rw [Memory.get_put]
  by_cases h : c = a <;> simp [h]

theorem Memory.risingFrom_put (m : Memory) (lo a : Nat) (v : Word) (h : lo ≤ a)
    (hm : Memory.risingFrom lo m = true) : Memory.risingFrom lo (Memory.put m a v) = true := by
  induction m generalizing lo with
  | nil => simp [Memory.put, Memory.risingFrom, h]
  | cons cell rest ih =>
    obtain ⟨k, u⟩ := cell
    simp only [Memory.risingFrom, Bool.and_eq_true, decide_eq_true_eq] at hm
    rcases Nat.lt_trichotomy a k with hlt | heq | hgt
    · simp only [Memory.put, hlt, if_true, Memory.risingFrom, Bool.and_eq_true, decide_eq_true_eq]
      exact ⟨h, by omega, hm.2⟩
    · subst heq
      simp only [Memory.put, Nat.lt_irrefl, if_false, if_true, Memory.risingFrom, Bool.and_eq_true, decide_eq_true_eq]
      exact ⟨h, hm.2⟩
    · have h1 : ¬ a < k := by omega
      have h2 : a ≠ k := by omega
      simp only [Memory.put, h1, h2, if_false, Memory.risingFrom, Bool.and_eq_true, decide_eq_true_eq]
      exact ⟨hm.1, ih (k + 1) (by omega) hm.2⟩

/-- A write keeps the canonical form. -/
theorem Memory.wf_put {m : Memory} (a : Nat) (v : Word) (hm : Memory.wf m = true) :
    Memory.wf (Memory.put m a v) = true :=
  Memory.risingFrom_put m 0 a v (Nat.zero_le a) hm

/-- A write inside the space keeps everything listed inside it. -/
theorem Memory.within_put {size : Nat} {m : Memory} (a : Nat) (v : Word) (ha : a < size)
    (hm : Memory.within size m = true) : Memory.within size (Memory.put m a v) = true := by
  unfold Memory.within at hm ⊢
  induction m with
  | nil => simp [Memory.put, ha]
  | cons cell rest ih =>
    obtain ⟨k, u⟩ := cell
    simp only [List.all_cons, Bool.and_eq_true, decide_eq_true_eq] at hm
    unfold Memory.put
    split
    · simp only [List.all_cons, Bool.and_eq_true, decide_eq_true_eq]
      exact ⟨ha, hm.1, hm.2⟩
    · split
      · simp only [List.all_cons, Bool.and_eq_true, decide_eq_true_eq]
        exact ⟨ha, hm.2⟩
      · simp only [List.all_cons, Bool.and_eq_true, decide_eq_true_eq]
        exact ⟨hm.1, ih hm.2⟩

/-- A write inside its space keeps the canonical form and the bound together. -/
theorem Memory.put_keeps {size : Nat} {m : Memory} (a : Nat) (v : Word) (ha : a < size)
    (hm : Memory.wf m = true ∧ Memory.within size m = true) :
    Memory.wf (Memory.put m a v) = true ∧ Memory.within size (Memory.put m a v) = true :=
  ⟨Memory.wf_put a v hm.1, Memory.within_put a v ha hm.2⟩

/-- Nothing is forgotten: a place once written stays written. -/
theorem Memory.isSome_put {m : Memory} (a c : Nat) (v : Word) (h : (Memory.get m c).isSome = true) :
    (Memory.get (Memory.put m a v) c).isSome = true := by
  rw [Memory.get_put]; split <;> simp_all

/-! ## The linear index of a bank word -/

/-- Two bank words share an index only if they are the same word (R50). -/
theorem bankAddr_inj {b c : BankIdx} {o p : Nat} (ho : o < 1024) (hp : p < 1024)
    (h : bankAddr b o = bankAddr c p) : b = c ∧ o = p := by
  unfold bankAddr at h
  simp only [Config.bankCapacity] at h
  have : b.toNat = c.toNat := by omega
  exact ⟨BitVec.eq_of_toNat_eq this, by omega⟩

/-- A bank word's index lies in BANK space (R46). -/
theorem bankAddr_lt (b : BankIdx) {o : Nat} (ho : o < 1024) : bankAddr b o < bankSpaceSize := by
  have : b.toNat < 16 := b.isLt
  unfold bankAddr bankSpaceSize
  simp only [Config.bankCapacity, Config.numBanks]
  omega

/-! ## The words of the three spaces after a write -/

variable (s : State)

theorem putBank_bankWord {b c : BankIdx} {o p : Nat} (v : Word) (ho : o < 1024) (hp : p < 1024) :
    (putBank b o v s).bankWord c p = if c = b ∧ p = o then v else s.bankWord c p := by
  unfold State.bankWord
  rw [putBank_bank, Memory.read_put]
  by_cases h : c = b ∧ p = o
  · obtain ⟨rfl, rfl⟩ := h; simp
  · have : bankAddr c p ≠ bankAddr b o := fun e => h (bankAddr_inj hp ho e)
    simp [h, this]

@[simp] theorem putBank_stagingWord (b : BankIdx) (o : Nat) (v : Word) (a : Nat) :
    (putBank b o v s).stagingWord a = s.stagingWord a := rfl
@[simp] theorem putBank_mailboxWord (b : BankIdx) (o : Nat) (v : Word) (i : Nat) :
    (putBank b o v s).mailboxWord i = s.mailboxWord i := rfl

theorem putStaging_stagingWord (a c : Nat) (v : Word) :
    (putStaging a v s).stagingWord c = if c = a then v else s.stagingWord c := by
  unfold State.stagingWord
  rw [putStaging_staging, Memory.read_put]

@[simp] theorem putStaging_bankWord (a : Nat) (v : Word) (b : BankIdx) (o : Nat) :
    (putStaging a v s).bankWord b o = s.bankWord b o := rfl
@[simp] theorem putStaging_mailboxWord (a : Nat) (v : Word) (i : Nat) :
    (putStaging a v s).mailboxWord i = s.mailboxWord i := rfl

theorem putMailbox_mailboxWord (i k : Nat) (v : Word) :
    (putMailbox i v s).mailboxWord k = if k = i then v else s.mailboxWord k := by
  unfold State.mailboxWord
  rw [putMailbox_mailbox, Memory.read_put]

@[simp] theorem putMailbox_bankWord (i : Nat) (v : Word) (b : BankIdx) (o : Nat) :
    (putMailbox i v s).bankWord b o = s.bankWord b o := rfl
@[simp] theorem putMailbox_stagingWord (i : Nat) (v : Word) (a : Nat) :
    (putMailbox i v s).stagingWord a = s.stagingWord a := rfl

/-- `clear_header(b)` zeroes one header and leaves every other bank word (R93). -/
theorem clearHeader_bankWord {b c : BankIdx} {p : Nat} (hp : p < 1024) :
    (clearHeader b s).bankWord c p = if c = b ∧ p = 0 then 0#32 else s.bankWord c p :=
  putBank_bankWord s 0#32 (by omega) hp

/-- Words read the same in states that list the same words. -/
theorem bankWord_congr {s t : State} (h : t.bank = s.bank) (b : BankIdx) (o : Nat) :
    t.bankWord b o = s.bankWord b o := by unfold State.bankWord; rw [h]
theorem stagingWord_congr {s t : State} (h : t.staging = s.staging) (a : Nat) :
    t.stagingWord a = s.stagingWord a := by unfold State.stagingWord; rw [h]
theorem mailboxWord_congr {s t : State} (h : t.mailbox = s.mailbox) (i : Nat) :
    t.mailboxWord i = s.mailboxWord i := by unfold State.mailboxWord; rw [h]

end Sys2Proof.Machine
end

