-- ==== Sys2Proof/Laws/Ops.lean ====
section
/-! SUPPORT. One lemma per shared operation that says everything it can do. -/

namespace Sys2Proof.Machine

/-! ## Word accesses -/

theorem bankWrite_ok {b : BankIdx} {o : Nat} {v : Word} {s t : State} (h : bankWrite b o v s = .ok t) :
    o < 1024 ∧ t = putBank b o v s := by
  unfold bankWrite at h
  split at h
  · exact ⟨by simpa using ‹o < Config.bankCapacity›, by cases h; rfl⟩
  · cases h

theorem mboxWrite_ok {i : Nat} {v : Word} {s t : State} (h : mboxWrite i v s = .ok t) :
    i < s.cfg.mailboxCapacity ∧ t = putMailbox i v s := by
  unfold mboxWrite at h
  split at h
  · exact ⟨‹_›, by cases h; rfl⟩
  · cases h

theorem bankRead_ok {b : BankIdx} {o : Nat} {s : State} {w : Word} (h : bankRead b o s = .ok w) :
    o < 1024 ∧ w = s.bankWord b o := by
  unfold bankRead at h
  split at h
  · exact ⟨by simpa using ‹o < Config.bankCapacity›, by cases h; rfl⟩
  · cases h

theorem bankRead_of_lt {b : BankIdx} {o : Nat} (s : State) (h : o < 1024) :
    bankRead b o s = .ok (s.bankWord b o) := by simp [bankRead, h]

theorem bankWrite_of_lt {b : BankIdx} {o : Nat} (v : Word) (s : State) (h : o < 1024) :
    bankWrite b o v s = .ok (putBank b o v s) := by simp [bankWrite, h]

/-- `n` reads inside the staging space give its words in order (R99). -/
theorem stagReadRun_of_le (s : State) (n : Nat) : ∀ a, a + n ≤ s.cfg.stagingCapacity →
    stagReadRun a n s = .ok ((List.range n).map (fun k => s.stagingWord (a + k))) := by
  induction n with
  | zero => intro a _; rfl
  | succ n ih =>
    intro a h
    have ha : a < s.cfg.stagingCapacity := by omega
    simp only [stagReadRun, stagRead, ha, if_true, ih (a + 1) (by omega), List.range_succ_eq_map, List.map_cons,
      List.map_map, Nat.add_zero]
    congr 2
    apply List.map_congr_left
    intro k _
    simp only [Function.comp, Nat.succ_eq_add_one]
    congr 1
    omega

/-- Reads that succeed gave the words in order. -/
theorem stagReadRun_ok {s : State} {n : Nat} : ∀ {a : Nat} {ws : List Word}, stagReadRun a n s = .ok ws →
    ws = (List.range n).map (fun k => s.stagingWord (a + k)) := by
  induction n with
  | zero => intro a ws h; simpa [stagReadRun] using h.symm
  | succ n ih =>
    intro a ws h
    simp only [stagReadRun] at h
    split at h
    · cases h
    · rename_i w hw
      split at h
      · cases h
      · rename_i ws' hws
        cases h
        rw [ih hws, List.range_succ_eq_map, List.map_cons, List.map_map]
        unfold stagRead at hw
        split at hw
        · cases hw
          simp only [Nat.add_zero]
          congr 1
          apply List.map_congr_left
          intro k _
          simp only [Function.comp, Nat.succ_eq_add_one]
          congr 1
          omega
        · cases hw

/-- What successive mailbox writes do (R121's loop): the words from the first index upward, and nothing else. -/
theorem mboxWriteRun_ok {ws : List Word} : ∀ {i : Nat} {s t : State}, mboxWriteRun i ws s = .ok t →
    t = { s with mailbox := t.mailbox } ∧
    (∀ k, t.mailboxWord k = if i ≤ k ∧ k < i + ws.length then ws.getD (k - i) 0#32 else s.mailboxWord k) ∧
    (Memory.wf s.mailbox = true ∧ Memory.within s.cfg.mailboxCapacity s.mailbox = true →
      Memory.wf t.mailbox = true ∧ Memory.within s.cfg.mailboxCapacity t.mailbox = true) := by
  induction ws with
  | nil =>
    intro i s t h
    cases h
    refine ⟨rfl, fun k => ?_, fun h => h⟩
    simp
  | cons w rest ih =>
    intro i s t h
    simp only [mboxWriteRun] at h
    split at h
    · cases h
    · rename_i u hu
      obtain ⟨hi, rfl⟩ := mboxWrite_ok hu
      obtain ⟨h1, h2, h3⟩ := ih h
      refine ⟨?_, fun k => ?_, fun hm => h3 (Memory.put_keeps i w hi hm)⟩
      · rw [h1]; rfl
      · rw [h2 k, putMailbox_mailboxWord]
        by_cases hk : k = i
        · subst hk; simp
        · by_cases hin : i + 1 ≤ k ∧ k < i + 1 + rest.length
          · have h' : i ≤ k ∧ k < i + (w :: rest).length := by simp only [List.length_cons]; omega
            rw [if_pos hin, if_pos h']
            obtain ⟨d, rfl⟩ : ∃ d, k = i + 1 + d := ⟨k - (i + 1), by omega⟩
            have e1 : i + 1 + d - (i + 1) = d := by omega
            have e2 : i + 1 + d - i = d + 1 := by omega
            rw [e1, e2]; rfl
          · have h' : ¬ (i ≤ k ∧ k < i + (w :: rest).length) := by simp only [List.length_cons]; omega
            rw [if_neg hin, if_neg h', if_neg hk]

/-- Mailbox writes inside the mailbox succeed. -/
theorem mboxWriteRun_of_le (ws : List Word) : ∀ (i : Nat) (s : State), i + ws.length ≤ s.cfg.mailboxCapacity →
    ∃ t, mboxWriteRun i ws s = .ok t := by
  induction ws with
  | nil => intro i s _; exact ⟨s, rfl⟩
  | cons w rest ih =>
    intro i s h
    simp only [List.length_cons] at h
    have hi : i < s.cfg.mailboxCapacity := by omega
    simp only [mboxWriteRun, mboxWrite, hi, if_true]
    exact ih (i + 1) (putMailbox i w s) (by simp only [putMailbox_cfg]; omega)

/-- What successive bank writes do (R91's loop). -/
theorem bankWriteRun_ok {b : BankIdx} {ws : List Word} : ∀ {o : Nat} {s t : State}, bankWriteRun b o ws s = .ok t →
    t = { s with bank := t.bank } ∧
    (∀ c p, p < 1024 →
      t.bankWord c p = if c = b ∧ o ≤ p ∧ p < o + ws.length then ws.getD (p - o) 0#32 else s.bankWord c p) ∧
    (Memory.wf s.bank = true ∧ Memory.within bankSpaceSize s.bank = true →
      Memory.wf t.bank = true ∧ Memory.within bankSpaceSize t.bank = true) ∧
    (∀ a, (Memory.get s.bank a).isSome = true → (Memory.get t.bank a).isSome = true) := by
  induction ws with
  | nil =>
    intro o s t h
    cases h
    refine ⟨rfl, fun c p _ => ?_, fun h => h, fun _ h => h⟩
    simp
  | cons w rest ih =>
    intro o s t h
    simp only [bankWriteRun] at h
    split at h
    · cases h
    · rename_i u hu
      obtain ⟨ho, rfl⟩ := bankWrite_ok hu
      obtain ⟨h1, h2, h3, h4⟩ := ih h
      refine ⟨?_, fun c p hp => ?_, fun hm => h3 (Memory.put_keeps _ w (bankAddr_lt b ho) hm),
        fun a ha => h4 a (Memory.isSome_put _ a w ha)⟩
      · rw [h1]; rfl
      · rw [h2 c p hp, putBank_bankWord s w ho hp]
        by_cases hc : c = b
        · subst hc
          by_cases hk : p = o
          · subst hk; simp
          · by_cases hin : o + 1 ≤ p ∧ p < o + 1 + rest.length
            · have h' : o ≤ p ∧ p < o + (w :: rest).length := by simp only [List.length_cons]; omega
              rw [if_pos ⟨rfl, hin⟩, if_pos ⟨rfl, h'⟩]
              obtain ⟨d, rfl⟩ : ∃ d, p = o + 1 + d := ⟨p - (o + 1), by omega⟩
              have e1 : o + 1 + d - (o + 1) = d := by omega
              have e2 : o + 1 + d - o = d + 1 := by omega
              rw [e1, e2]; rfl
            · have h' : ¬ (o ≤ p ∧ p < o + (w :: rest).length) := by simp only [List.length_cons]; omega
              rw [if_neg (fun h => hin h.2), if_neg (fun h => hk h.2), if_neg (fun h => h' h.2)]
        · simp [hc]

/-- Bank writes inside the bank succeed. -/
theorem bankWriteRun_of_le (b : BankIdx) (ws : List Word) : ∀ (o : Nat) (s : State), o + ws.length ≤ 1024 →
    ∃ t, bankWriteRun b o ws s = .ok t := by
  induction ws with
  | nil => intro o s _; exact ⟨s, rfl⟩
  | cons w rest ih =>
    intro o s h
    simp only [List.length_cons] at h
    have ho : o < 1024 := by omega
    simp only [bankWriteRun, bankWrite_of_lt w s ho]
    exact ih (o + 1) (putBank b o w s) (by omega)

/-! ## BEGIN_SPILL's loop -/

/-- What zeroing the first `n` headers does (R133). -/
theorem clearHeaders_spec (n : Nat) (hn : n ≤ 16) (s : State) :
    clearHeaders n s = { s with bank := (clearHeaders n s).bank } ∧
    (∀ c p, p < 1024 →
      (clearHeaders n s).bankWord c p = if c.toNat < n ∧ p = 0 then 0#32 else s.bankWord c p) ∧
    (Memory.wf s.bank = true ∧ Memory.within bankSpaceSize s.bank = true →
      Memory.wf (clearHeaders n s).bank = true ∧ Memory.within bankSpaceSize (clearHeaders n s).bank = true) ∧
    (∀ c : BankIdx, c.toNat < n → (Memory.get (clearHeaders n s).bank (bankAddr c 0)).isSome = true) := by
  induction n with
  | zero => exact ⟨rfl, fun c p _ => by simp [clearHeaders], fun h => h, fun c h => by omega⟩
  | succ n ih =>
    obtain ⟨h1, h2, h3, h4⟩ := ih (by omega)
    have hb : (BitVec.ofNat 4 n).toNat = n := by simp; omega
    refine ⟨?_, fun c p hp => ?_, fun hm => Memory.put_keeps _ _ (bankAddr_lt _ (by omega)) (h3 hm),
      fun c hc => ?_⟩
    · conv => lhs; rw [clearHeaders, h1]
      rfl
    · rw [clearHeaders, clearHeader_bankWord _ hp, h2 c p hp]
      by_cases hc : c = BitVec.ofNat 4 n
      · subst hc; by_cases hp0 : p = 0 <;> simp [hp0]; omega
      · have : c.toNat ≠ n := fun e => hc (BitVec.eq_of_toNat_eq (by rw [e, hb]))
        by_cases hp0 : p = 0
        · by_cases hlt : c.toNat < n
          · have : c.toNat < n + 1 := by omega
            simp [hc, hp0, hlt, this]
          · have : ¬ c.toNat < n + 1 := by omega
            simp [hc, hp0, hlt, this]
        · simp [hp0]
    · rw [clearHeaders, clearHeader_bank, Memory.get_put]
      by_cases hc' : bankAddr c 0 = bankAddr (BitVec.ofNat 4 n) 0
      · simp [hc']
      · rw [if_neg hc']
        apply h4
        rcases Nat.lt_or_ge c.toNat n with h | h
        · exact h
        · exact absurd (by rw [show c = BitVec.ofNat 4 n from BitVec.eq_of_toNat_eq (by omega)]) hc'

/-! ## The cursor controller -/

theorem pushWord_of_lt (w : Word) {s : State} (h : s.wr < s.cfg.stagingCapacity) :
    pushWord w s = { putStaging s.wr w s with wr := s.wr + 1, occupied := s.occupied + 1 } := by
  simp [pushWord, h]

theorem pushWord_of_ge (w : Word) {s : State} (h : s.cfg.stagingCapacity ≤ s.wr) :
    pushWord w s = raise .stagingOverflow s := by
  have : ¬ s.wr < s.cfg.stagingCapacity := by omega
  simp [pushWord, this]

theorem pushThen_of_lt (w : Word) (f : State → State) {s : State} (h : s.wr < s.cfg.stagingCapacity) :
    pushThen w f s = f (pushWord w s) := by simp [pushThen, h]

theorem pushThen_of_ge (w : Word) (f : State → State) {s : State} (h : s.cfg.stagingCapacity ≤ s.wr) :
    pushThen w f s = raise .stagingOverflow s := by
  have : ¬ s.wr < s.cfg.stagingCapacity := by omega
  simp [pushThen, this, pushWord_of_ge w h]

/-- What a batch that is popped does (R99). -/
theorem popBatch_ok {m : Nat} {s t : State} {ws : List Word} (h : popBatch m s = .ok (ws, t)) :
    ws = (List.range (batchSize m s)).map (fun k => s.stagingWord (s.rd + k)) ∧
    t = { s with rd := s.rd + batchSize m s, occupied := s.occupied - batchSize m s } := by
  unfold popBatch at h
  split at h
  · cases h
  · rename_i words hw
    cases h
    exact ⟨stagReadRun_ok hw, rfl⟩

/-- A batch inside the staging space is popped. -/
theorem popBatch_of_le (m : Nat) (s : State) (h : s.rd + batchSize m s ≤ s.cfg.stagingCapacity) :
    popBatch m s = .ok ((List.range (batchSize m s)).map (fun k => s.stagingWord (s.rd + k)),
      { s with rd := s.rd + batchSize m s, occupied := s.occupied - batchSize m s }) := by
  simp [popBatch, stagReadRun_of_le s _ _ h]

end Sys2Proof.Machine
end

