-- ==== Sys2Proof/Laws/PerInstr.lean ====
section
/-! SUPPORT. Statements made per instruction, one lemma per constructor of Instr. -/

namespace Sys2Proof.Laws.TableRow

/-- The encoder's event word lies in the instruction's own row of the opcode table (R77, R78). -/
def Statement (i : Instr) : Prop := (encode i).word &&& (tableRow i).2 = (tableRow i).1

theorem reset : Statement .reset := rfl
theorem fill (b : BankIdx) (h : Word) (p : List Word) (f : Word) : Statement (.fill b h p f) := by
  show 0x0400#16 + b.setWidth 16 &&& 0xFFF0#16 = 0x0400#16
  revert b; decide
theorem lineRise : Statement .lineRise := rfl
theorem lineFall : Statement .lineFall := rfl
theorem setStart (v : Bool) : Statement (.setStart v) := by cases v <;> rfl
theorem mboxRead (k : Nat) : Statement (.mboxRead k) := by
  simp only [Statement, encode, tableRow]; decide
theorem scan : Statement .scan := rfl
theorem check : Statement .check := rfl
theorem pushHdr : Statement .pushHdr := rfl
theorem pushPay : Statement .pushPay := rfl
theorem pushFtr : Statement .pushFtr := rfl
theorem clear : Statement .clear := rfl
theorem beginSpill : Statement .beginSpill := rfl
theorem idle : Statement .idle := rfl
theorem drain : Statement .drain := rfl
theorem headerOf (b : BankIdx) : Statement (.headerOf b) := by
  simp only [Statement, encode, tableRow]; decide
theorem isFull (b : BankIdx) : Statement (.isFull b) := by
  simp only [Statement, encode, tableRow]; decide
theorem wordCount (h : Word) : Statement (.wordCount h) := by
  simp only [Statement, encode, tableRow]; decide
theorem readPayloadWord (b : BankIdx) (k : Nat) : Statement (.readPayloadWord b k) := by
  simp only [Statement, encode, tableRow]; decide
theorem readFooter (b : BankIdx) : Statement (.readFooter b) := by
  simp only [Statement, encode, tableRow]; decide
theorem clearHeader (b : BankIdx) : Statement (.clearHeader b) := by
  simp only [Statement, encode, tableRow]; decide
theorem stagingReset : Statement .stagingReset := rfl
theorem push (w : Word) : Statement (.push w) := by
  simp only [Statement, encode, tableRow]; decide
theorem popBatch (m : Nat) : Statement (.popBatch m) := by
  simp only [Statement, encode, tableRow]; decide
theorem occupied : Statement .occupied := rfl
theorem readLevel : Statement .readLevel := rfl
theorem acknowledge : Statement .acknowledge := rfl
theorem indicatorSet (k : Fin 2) : Statement (.indicatorSet k) := by
  simp only [Statement, encode, tableRow]; decide
theorem indicatorClear (k : Fin 2) : Statement (.indicatorClear k) := by
  simp only [Statement, encode, tableRow]; decide
theorem diagnosticWrite : Statement .diagnosticWrite := rfl

end Sys2Proof.Laws.TableRow
end

