-- ==== Sys2Proof/Laws/Step.lean ====
section
/-! SUPPORT. Once each: what taking a step can answer, what CHECK and DRAIN do, and the induction over runs. -/

namespace Sys2Proof.Machine

/-! ## Taking a step -/

/-- An effect that cannot fail: the step is taken and recorded, or its guard is false and nothing happens. -/
theorem takeStep_next {i : Instr} {f : State → State} {s t : State} (h : takeStep i f s = .next t) :
    (enabled i s = true ∧ t = record (encode i) (f s)) ∨ (enabled i s = false ∧ t = s) := by
  unfold takeStep at h
  split at h
  · exact .inl ⟨‹_›, by cases h; rfl⟩
  · exact .inr ⟨by simpa using ‹¬ enabled i s = true›, by cases h; rfl⟩

/-- The same of an effect whose accesses could leave their space. -/
theorem tryStep_next {i : Instr} {f : State → Except Fault State} {s t : State} (h : tryStep i f s = .next t) :
    (enabled i s = true ∧ ∃ u, f s = .ok u ∧ t = record (encode i) u) ∨ (enabled i s = false ∧ t = s) := by
  unfold tryStep at h
  split at h
  · split at h
    · exact .inl ⟨‹_›, _, ‹_›, by cases h; rfl⟩
    · cases h
  · exact .inr ⟨by simpa using ‹¬ enabled i s = true›, by cases h; rfl⟩

theorem takeStep_of_enabled {i : Instr} {f : State → State} {s : State} (h : enabled i s = true) :
    takeStep i f s = .next (record (encode i) (f s)) := by simp [takeStep, h]

theorem tryStep_of_enabled {i : Instr} {f : State → Except Fault State} {s u : State} (h : enabled i s = true)
    (hf : f s = .ok u) : tryStep i f s = .next (record (encode i) u) := by simp [tryStep, h, hf]

/-! ## Which step is taken -/

@[simp] theorem turn_spillState (s : State) : (turn s).spillState = s.spillState := rfl
@[simp] theorem turn_phase (s : State) : (turn s).phase = s.phase := rfl
@[simp] theorem turn_lineLevel (s : State) : (turn s).lineLevel = s.lineLevel := rfl
@[simp] theorem turn_edgeLatch (s : State) : (turn s).edgeLatch = s.edgeLatch := rfl
@[simp] theorem turn_startEn (s : State) : (turn s).startEn = s.startEn := rfl
@[simp] theorem turn_bank (s : State) : (turn s).bank = s.bank := rfl
@[simp] theorem turn_cfg (s : State) : (turn s).cfg = s.cfg := rfl
@[simp] theorem turn_script (s : State) : (turn s).script = s.script := rfl
@[simp] theorem turn_tick (s : State) : (turn s).tick = s.tick + 1 := rfl
@[simp] theorem turn_wait (s : State) : (turn s).wait = nextWait s := rfl

/-- A guard reads the sequencer's phase, the spill state, the two inputs, the latch and the headers, nothing else
(R77, R79, R80). -/
theorem enabled_congr (i : Instr) {s t : State} (hp : t.phase = s.phase) (hs : t.spillState = s.spillState)
    (ho : t.startEn = s.startEn) (hl : t.lineLevel = s.lineLevel) (he : t.edgeLatch = s.edgeLatch)
    (hb : t.bank = s.bank) : enabled i t = enabled i s := by
  cases i
  case fill b h p f =>
    show (decide (t.headerOf b = 0#32) && _) = (decide (s.headerOf b = 0#32) && _)
    rw [show t.headerOf b = s.headerOf b from bankWord_congr hb b 0]
  all_goals simp only [enabled, hp, hs, ho, hl, he]

@[simp] theorem enabled_turn (i : Instr) (s : State) : enabled i (turn s) = enabled i s :=
  enabled_congr i rfl rfl rfl rfl rfl rfl

/-- The step the dispatch table gives is a polling-agent step (R79). -/
theorem pollingStep_isPolling (s : State) : (pollingStep s).isPolling = true := by
  unfold pollingStep
  cases s.phase <;> cases s.spillState <;> cases s.startEn <;> rfl

theorem step_of_unscripted {s : State} (h : s.script = []) : step s = exec (coreChoice s) (turn s) := by
  simp [step, fetch, h]

theorem step_of_scripted {s : State} {e : Event} {rest : List Event} {i : Instr} (h : s.script = e :: rest)
    (hd : decode e = .ok i) : step s = exec i { s with script := rest } := by
  simp [step, fetch, h, hd]

/-- While an edge is latched DRAIN's wait is counted down, and DRAIN goes when it is over (log 6). -/
theorem coreChoice_of_latched {s : State} (h : s.edgeLatch = true) :
    (patience s = 0 ∧ coreChoice s = .drain) ∨
      (∃ k, patience s = k + 1 ∧ coreChoice s = pollingStep s ∧ (turn s).wait = some k) := by
  cases hp : patience s with
  | zero => exact .inl ⟨rfl, by simp [coreChoice, h, hp]⟩
  | succ k => exact .inr ⟨k, rfl, by simp [coreChoice, h, hp], by simp [nextWait, h, hp]⟩

/-- With no edge latched the polling agent moves. -/
theorem coreChoice_of_clear {s : State} (h : s.edgeLatch = false) : coreChoice s = pollingStep s := by
  simp [coreChoice, h]

/-! ## CHECK -/

/-- What CHECK leaves: the count, the footer, the flags and the phase (R107). -/
theorem checkFit_spec (n : Nat) (s : State) :
    checkFit n s = { s with
      fltBankCount := s.fltBankCount || badCount n
      fltStagingOvf := s.fltStagingOvf || (!badCount n && overflows n s)
      phase := if badCount n || overflows n s then .halt else .pushHdr } := by
  unfold checkFit
  cases badCount n <;> cases overflows n s <;> simp [raise]

theorem checkId_spec (f : Word) (s : State) :
    checkId f s = { s with fltIdMismatch := s.fltIdMismatch || idMismatch s.cfg s.bankCursor s.hdrReg f } := by
  unfold checkId
  cases idMismatch s.cfg s.bankCursor s.hdrReg f <;> simp [raise]

/-- The state after CHECK in one record update (R107). -/
theorem checkRecord_ok {s t : State} (h : checkRecord s = .ok t) :
    s.cfg.footerOffset < 1024 ∧ ∃ n f, n = wordCount s.cfg s.hdrReg ∧
      f = s.bankWord s.bankCursor s.cfg.footerOffset ∧
      t = { s with
        cntReg := n
        ftrReg := f
        fltIdMismatch := s.fltIdMismatch || idMismatch s.cfg s.bankCursor s.hdrReg f
        fltBankCount := s.fltBankCount || badCount n
        fltStagingOvf := s.fltStagingOvf || (!badCount n && overflows n s)
        phase := if badCount n || overflows n s then .halt else .pushHdr } := by
  unfold checkRecord at h
  split at h
  · cases h
  · rename_i f hf
    obtain ⟨ho, rfl⟩ := bankRead_ok hf
    cases h
    refine ⟨ho, _, _, rfl, rfl, ?_⟩
    rw [checkFit_spec, checkId_spec]
    rfl

theorem checkRecord_of_lt (s : State) (h : s.cfg.footerOffset < 1024) : ∃ t, checkRecord s = .ok t := by
  simp [checkRecord, readFooter, bankRead_of_lt s h]

/-! ## DRAIN -/

/-- The first drain moves no word and no cursor but `rd` (R123). -/
theorem firstDrain_spec (s : State) :
    firstDrain s = { s with
      spillState := (firstDrain s).spillState
      history := (firstDrain s).history
      rd := if s.spillState = .beamOn then 0 else s.rd
      ind0 := if s.spillState = .beamOn then false else s.ind0
      ind1 := if s.spillState = .beamOn then true else s.ind1 } ∧
    (firstDrain s).spillState = (if s.spillState = .beamOn then .beamOff else s.spillState) := by
  unfold firstDrain
  by_cases h : s.spillState = .beamOn
  · simp [h, setSpill, showBeamOff, indicatorSet, indicatorClear]
  · simp [h]

/-- The end of a drain changes the spill state and the indicators alone, when the buffer is empty (R124). -/
theorem endOfDrain_spec (s : State) :
    endOfDrain s = { s with
      spillState := if s.occupied = 0 then .ready else s.spillState
      history := (endOfDrain s).history
      ind0 := if s.occupied = 0 then true else s.ind0
      ind1 := if s.occupied = 0 then true else s.ind1 } := by
  unfold endOfDrain
  by_cases h : s.occupied = 0
  · by_cases hr : s.spillState = .ready <;> simp [h, hr, setSpill, showDrained, indicatorSet]
  · simp [h]

/-- What moving a batch does (R121, R122): the frame, and the cursors. -/
theorem moveBatch_ok {s t : State} (h : moveBatch s = .ok t) :
    t = { s with
      mailbox := t.mailbox
      rd := s.rd + drainSize s
      occupied := s.occupied - drainSize s } ∧
    (∀ k, t.mailboxWord k =
      if k = 0 then BitVec.ofNat 32 (drainSize s)
      else if k ≤ drainSize s then s.stagingWord (s.rd + (k - 1)) else s.mailboxWord k) ∧
    (Memory.wf s.mailbox = true ∧ Memory.within s.cfg.mailboxCapacity s.mailbox = true →
      Memory.wf t.mailbox = true ∧ Memory.within s.cfg.mailboxCapacity t.mailbox = true) := by
  unfold moveBatch at h
  split at h
  · cases h
  · rename_i u hu
    obtain ⟨hM, rfl⟩ := mboxWrite_ok hu
    split at h
    · cases h
    · rename_i words v hv
      obtain ⟨rfl, rfl⟩ := popBatch_ok hv
      obtain ⟨h1, h2, h3⟩ := mboxWriteRun_ok h
      have hsize : batchSize (s.cfg.mailboxCapacity - 1) (putMailbox 0 (BitVec.ofNat 32
        (batchSize (s.cfg.mailboxCapacity - 1) s)) s) = drainSize s := rfl
      simp only [putMailbox_cfg, hsize] at h1 h2 h3
      refine ⟨by rw [h1]; rfl, fun k => ?_, fun hm => h3 (Memory.put_keeps 0 _ hM hm)⟩
      rw [h2 k]
      simp only [List.length_map, List.length_range]
      rcases Nat.eq_zero_or_pos k with rfl | hk
      · have : ¬ (1 ≤ 0 ∧ 0 < 1 + drainSize s) := by omega
        rw [if_neg this, if_pos rfl]
        have := putMailbox_mailboxWord s 0 0 (BitVec.ofNat 32 (drainSize s))
        rw [if_pos rfl] at this
        exact this
      · have hk0 : k ≠ 0 := by omega
        by_cases hin : k ≤ drainSize s
        · have h' : 1 ≤ k ∧ k < 1 + drainSize s := by omega
          rw [if_pos h', if_neg hk0, if_pos hin, List.getD_eq_getElem?_getD]
          have hlt : k - 1 < drainSize s := by omega
          simp [hlt]
        · have h' : ¬ (1 ≤ k ∧ k < 1 + drainSize s) := by omega
          rw [if_neg h', if_neg hk0, if_neg hin]
          have := putMailbox_mailboxWord s 0 k (BitVec.ofNat 32 (drainSize s))
          rw [if_neg hk0] at this
          exact this

/-- A batch inside its spaces is moved. -/
theorem moveBatch_of_le (s : State) (hM : 1 ≤ s.cfg.mailboxCapacity)
    (hS : s.rd + drainSize s ≤ s.cfg.stagingCapacity) : ∃ t, moveBatch s = .ok t := by
  have h0 : 0 < s.cfg.mailboxCapacity := by omega
  have hsize : batchSize (s.cfg.mailboxCapacity - 1) (putMailbox 0 (BitVec.ofNat 32
    (batchSize (s.cfg.mailboxCapacity - 1) s)) s) = drainSize s := rfl
  have hn : drainSize s ≤ s.cfg.mailboxCapacity - 1 := Nat.min_le_left _ _
  simp only [moveBatch, mboxWrite, h0, if_true]
  rw [popBatch_of_le _ _ (by rw [hsize]; exact hS)]
  simp only [hsize]
  apply mboxWriteRun_of_le
  simp only [List.length_map, List.length_range, putMailbox_cfg]
  omega

/-! ## Runs -/

/-- An invariant of a machine's step holds along every run (the induction, once). -/
theorem run_keeps (M : Host.Core) {P : M.State → Prop} (h : ∀ s t, P s → M.step s = .next t → P t) (k : Nat) :
    ∀ s t, P s → M.run k s = .next t → P t := by
  induction k with
  | zero => intro s t hs h0; cases h0; exact hs
  | succ k ih =>
    intro s t hs hr
    rw [Host.Core.run] at hr
    split at hr
    · exact ih _ _ (h _ _ hs ‹_›) hr
    · cases hr
    · cases hr

end Sys2Proof.Machine
end

