-- ==== Sys2Proof/Tests/Slice0.lean ====
section
/-! SUPPORT. Tests: operand checks, words written out from rules R76 to R78, the derived vectors of 95_test_vectors.md
(named in each test's comment), and for each statement with hypotheses a state and operands that meet them. -/

namespace Sys2Proof.Tests

open Sys2Proof Sys2Proof.Machine

/-! ## Well-formedness: one ill-formed term for each check -/

/-- FILL's payload has at most C − 1 words (R91). -/
theorem test_wellFormed_fill :
    WellFormed (.fill 0#4 1#32 (List.replicate 1024 0#32) 0#32) = false ∧
    WellFormed (.fill 0#4 1#32 (List.replicate 1023 0#32) 0#32) = true := by
  simp only [WellFormed, List.length_replicate]
  decide

/-- FILL's header word is not zero (R91). -/
theorem test_wellFormed_fill_header : WellFormed (.fill 0#4 0#32 [] 1#32) = false := by decide

/-- A number of 33 bits does not fit the word beside the event word (log 9). -/
theorem test_wellFormed_numbers :
    WellFormed (.mboxRead 0x100000000) = false ∧ WellFormed (.mboxRead 0xFFFFFFFF) = true ∧
    WellFormed (.popBatch 0x100000000) = false ∧ WellFormed (.popBatch 0xFFFFFFFF) = true := by decide

/-- A bank offset lies below C (R47). -/
theorem test_wellFormed_offset :
    WellFormed (.readPayloadWord 0#4 1024) = false ∧ WellFormed (.readPayloadWord 0#4 1023) = true := by decide

/-! ## Decoding: cls[15:14] code[13:10] arg[9:0] written out bit by bit (R76), operands beside -/

/-- Environment steps, cls 00 (R77). -/
theorem test_decode_environment :
    decode ⟨0b00_0000_0000000000#16, []⟩ = .ok .reset ∧
    decode ⟨0b00_0001_0000001010#16, [0x00200000#32, 0xD0#32, 0xF0#32]⟩ =
      .ok (.fill 10#4 0x00200000#32 [0xD0#32] 0xF0#32) ∧
    decode ⟨0b00_0010_0000000000#16, []⟩ = .ok .lineRise ∧
    decode ⟨0b00_0011_0000000000#16, []⟩ = .ok .lineFall ∧
    decode ⟨0b00_0100_0000000000#16, []⟩ = .ok (.setStart false) ∧
    decode ⟨0b00_0100_0000000001#16, []⟩ = .ok (.setStart true) ∧
    decode ⟨0b00_0101_0000000000#16, [7#32]⟩ = .ok (.mboxRead 7) := by decide

/-- Polling-agent steps, cls 01 (R77): the code of SCAN to CLEAR is the phase value. -/
theorem test_decode_polling :
    decode ⟨0b01_0000_0000000000#16, []⟩ = .ok .scan ∧
    decode ⟨0b01_0001_0000000000#16, []⟩ = .ok .check ∧
    decode ⟨0b01_0010_0000000000#16, []⟩ = .ok .pushHdr ∧
    decode ⟨0b01_0011_0000000000#16, []⟩ = .ok .pushPay ∧
    decode ⟨0b01_0100_0000000000#16, []⟩ = .ok .pushFtr ∧
    decode ⟨0b01_0101_0000000000#16, []⟩ = .ok .clear ∧
    decode ⟨0b01_0110_0000000000#16, []⟩ = .ok .beginSpill ∧
    decode ⟨0b01_0111_0000000000#16, []⟩ = .ok .idle := by decide

/-- The handler agent's step, cls 10 (R77). -/
theorem test_decode_handler : decode ⟨0b10_0000_0000000000#16, []⟩ = .ok .drain := by decide

/-- BankStore primitives, cls 11 (R78). -/
theorem test_decode_bankStore :
    decode ⟨0b11_0000_0000000000#16, [3#32]⟩ = .ok (.headerOf 3#4) ∧
    decode ⟨0b11_0001_0000000000#16, [15#32]⟩ = .ok (.isFull 15#4) ∧
    decode ⟨0b11_0010_0000000000#16, [0x80500123#32]⟩ = .ok (.wordCount 0x80500123#32) ∧
    decode ⟨0b11_0011_0000000000#16, [3#32, 4#32]⟩ = .ok (.readPayloadWord 3#4 4) ∧
    decode ⟨0b11_0100_0000000000#16, [3#32]⟩ = .ok (.readFooter 3#4) ∧
    decode ⟨0b11_0101_0000000000#16, [0#32]⟩ = .ok (.clearHeader 0#4) := by decide

/-- StagingBuffer primitives, cls 11 (R78). -/
theorem test_decode_staging :
    decode ⟨0b11_0110_0000000000#16, []⟩ = .ok .stagingReset ∧
    decode ⟨0b11_0111_0000000000#16, [0xAB#32]⟩ = .ok (.push 0xAB#32) ∧
    decode ⟨0b11_1000_0000000000#16, [7#32]⟩ = .ok (.popBatch 7) ∧
    decode ⟨0b11_1001_0000000000#16, []⟩ = .ok .occupied := by decide

/-- Synchronizer, indicator and diagnostic primitives, cls 11 (R78). -/
theorem test_decode_outputs :
    decode ⟨0b11_1010_0000000000#16, []⟩ = .ok .readLevel ∧
    decode ⟨0b11_1011_0000000000#16, []⟩ = .ok .acknowledge ∧
    decode ⟨0b11_1100_0000000000#16, [1#32]⟩ = .ok (.indicatorSet 1) ∧
    decode ⟨0b11_1101_0000000000#16, [0#32]⟩ = .ok (.indicatorClear 0) ∧
    decode ⟨0b11_1110_0000000000#16, []⟩ = .ok .diagnosticWrite := by decide

/-- Operand words the model refuses (log 9): a bank index, an indicator index, an offset out of range; too few, too many. -/
theorem test_decode_refuses_operands :
    decode ⟨0xC000#16, [16#32]⟩ = .error .operandRange ∧
    decode ⟨0xF000#16, [2#32]⟩ = .error .operandRange ∧
    decode ⟨0xCC00#16, [0#32, 1024#32]⟩ = .error .operandRange ∧
    decode ⟨0x0400#16, [0x00100000#32]⟩ = .error .operandCount ∧
    decode ⟨0x8000#16, [0#32]⟩ = .error .operandCount := by decide

/-- The event words of the thirty rows (R77, R78). -/
def rowWords : List Nat :=
  [0x0000, 0x0400, 0x0800, 0x0C00, 0x1000, 0x1400] ++
    [0x4000, 0x4400, 0x4800, 0x4C00, 0x5000, 0x5400, 0x5800, 0x5C00] ++ [0x8000] ++
    [0xC000, 0xC400, 0xC800, 0xCC00, 0xD000, 0xD400] ++ [0xD800, 0xDC00, 0xE000, 0xE400] ++
    [0xE800, 0xEC00, 0xF000, 0xF400, 0xF800]

/-- Whether an outcome is a next state. -/
def isNext (o : Host.Outcome State Fault Refusal) : Bool :=
  match o with
  | .next _ => true
  | .fault _ => false
  | .refused _ => false

/-- Every row's word decodes, and runs as the first step after reset. -/
theorem test_rows_run :
    rowWords.all (fun w => (decodeTableWord 16 w).isSome && isNext (step (State.reset.withFetchWord 16 w))) = true := by
  decide

/-- A primitive's operand word stands above the event word. -/
theorem test_tableWord_operand : decodeTableWord 48 0x000000ABDC00 = some (.push 0xAB#32) := by decide

/-! ## Small states -/

/-- The default configuration of the vectors with its own S and M (95_test_vectors, 0). -/
def conf (S M : Nat) : Params := { Config.standard with stagingCapacity := S, mailboxCapacity := M }

/-- A state with these sizes, nothing else changed since reset. -/
def start (S M : Nat) : State := State.resetWith (conf S M) false false

/-- Words written one after the other from an index upward. -/
def words (a : Nat) (ws : List Word) (m : Memory) : Memory :=
  match ws with
  | [] => m
  | w :: rest => words (a + 1) rest (Memory.put m a w)

/-- A record in a bank: header, payload from offset 1, footer at 1021 (R67). -/
def withRecord (b : BankIdx) (h : Word) (p : List Word) (f : Word) (s : State) : State :=
  { s with bank := Memory.put (words (bankAddr b 1) p (Memory.put s.bank (bankAddr b 0) h)) (bankAddr b 1021) f }

/-- A staging buffer holding these words, `rd` of them drained (R21 to R23). -/
def withStaged (ws : List Word) (rd : Nat) (s : State) : State :=
  { s with staging := words 0 ws [], wr := ws.length, rd := rd, occupied := ws.length - rd }

/-- All sixteen headers zero, as BEGIN_SPILL leaves them (R133). -/
def emptyBanks (s : State) : State := clearHeaders 16 s

/-- What a next state shows; `none` where the machine stops. -/
def see {α : Type} (f : State → α) (i : Instr) (s : State) : Option α :=
  match exec i s with
  | .next t => some (f t)
  | .fault _ => none
  | .refused _ => none

/-- Whether the machine goes on, to a state with this property. -/
def ends (i : Instr) (s : State) (p : State → Bool) : Bool :=
  match exec i s with
  | .next t => p t
  | .fault _ => false
  | .refused _ => false

/-! ## `word_count`: W4 to W7, W9 -/

theorem test_wordCount_field :
    see (fun t => t.ret) (.wordCount 0x80500123#32) State.reset = some (.int 5) ∧
    see (fun t => t.ret) (.wordCount 0x40000000#32) State.reset = some (.int 1024) ∧
    see (fun t => t.ret) (.wordCount 0x40100000#32) State.reset = some (.int 1025) ∧
    see (fun t => t.ret) (.wordCount 0x7FF00000#32) State.reset = some (.int 2047) ∧
    see (fun t => t.ret) (.wordCount 0x800FFFFF#32) State.reset = some (.int 0) := by decide

/-! ## BankStore: B1 to B9 -/

/-- The start of the BankStore vectors. -/
def bankStart : State :=
  putBank 5#4 0 0x80000000#32 (putBank 4#4 0 0#32
    (withRecord 3#4 0x00500000#32 [0xA0#32, 0xA1#32, 0xA2#32, 0xA3#32] 0xF00D0001#32 (start 64 8)))

/-- B1, B2. -/
theorem test_headerOf :
    see (fun t => t.ret) (.headerOf 3#4) bankStart = some (.word 0x00500000#32) ∧
    see (fun t => t.ret) (.headerOf 4#4) bankStart = some (.word 0#32) := by decide

/-- B3: a reserved bit alone makes a bank full. -/
theorem test_isFull :
    see (fun t => t.ret) (.isFull 3#4) bankStart = some (.bool true) ∧
    see (fun t => t.ret) (.isFull 4#4) bankStart = some (.bool false) ∧
    see (fun t => t.ret) (.isFull 5#4) bankStart = some (.bool true) := by decide

/-- B4. -/
theorem test_readPayloadWord :
    see (fun t => t.ret) (.readPayloadWord 3#4 1) bankStart = some (.word 0xA0#32) ∧
    see (fun t => t.ret) (.readPayloadWord 3#4 4) bankStart = some (.word 0xA3#32) := by decide

/-- B5. -/
theorem test_readFooter : see (fun t => t.ret) (.readFooter 3#4) bankStart = some (.word 0xF00D0001#32) := by decide

/-- B6. -/
theorem test_clearHeader :
    see (fun t => (t.bankWord 3#4 0, t.bankWord 3#4 1, t.bankWord 3#4 1021)) (.clearHeader 3#4) bankStart =
      some (0#32, 0xA0#32, 0xF00D0001#32) := by decide

/-- B7. -/
theorem test_nextBank : nextBank 0#4 = 1#4 ∧ nextBank 14#4 = 15#4 ∧ nextBank 15#4 = 0#4 := by decide

/-- B8. -/
theorem test_fill :
    see (fun t => (t.bankWord 4#4 0, t.bankWord 4#4 1, t.bankWord 4#4 2, t.bankWord 4#4 1021))
      (.fill 4#4 0x00300000#32 [0xB0#32, 0xB1#32] 0xF00D0002#32) bankStart =
      some (0x00300000#32, 0xB0#32, 0xB1#32, 0xF00D0002#32) := by decide

/-- B9: a full bank is not filled; and a zero header word has no move (R91, R180). -/
theorem test_fill_full :
    see (fun t => t.bankWord 3#4 0) (.fill 3#4 0x00300000#32 [] 0#32) bankStart = some 0x00500000#32 ∧
    exec (.fill 4#4 0#32 [0xB0#32] 0xF0#32) bankStart = .next bankStart := ⟨by decide, rfl⟩

/-! ## StagingBuffer: S2 to S9 -/

/-- S2: the last place. -/
theorem test_push_last :
    see (fun t => (t.stagingWord 7, t.wr, t.occupied, t.fltStagingOvf)) (.push 0xAB#32)
      (withStaged (List.replicate 7 1#32) 0 (start 8 8)) = some (0xAB#32, 8, 8, false) := by decide

/-- S4: the test is on `wr`, not on `occupied`, and nothing wraps. -/
theorem test_push_overflow :
    see (fun t => (t.fltStagingOvf, t.phase, t.stagingWord 0, t.wr, t.occupied)) (.push 0xCD#32)
      (withStaged (List.replicate 8 1#32) 7 (start 8 8)) = some (true, .halt, 1#32, 8, 1) := by decide

/-- The words w0 to w7. -/
def eight : List Word := [0#32, 1#32, 2#32, 3#32, 4#32, 5#32, 6#32, 7#32]

/-- S5, S6: fewer than the size asked for. -/
theorem test_popBatch :
    see (fun t => (t.ret, t.rd, t.occupied)) (.popBatch 7) (withStaged eight 0 (start 64 8)) =
      some (.batch 7 [0#32, 1#32, 2#32, 3#32, 4#32, 5#32, 6#32], 7, 1) ∧
    see (fun t => (t.ret, t.rd, t.occupied)) (.popBatch 7) (withStaged eight 7 (start 64 8)) =
      some (.batch 1 [7#32], 8, 0) := by decide

/-- S7, S8. -/
theorem test_popBatch_nothing :
    see (fun t => (t.ret, t.rd, t.occupied)) (.popBatch 7) (withStaged eight 8 (start 64 8)) =
      some (.batch 0 [], 8, 0) ∧
    see (fun t => (t.ret, t.rd, t.occupied)) (.popBatch 0) (withStaged eight 5 (start 64 8)) =
      some (.batch 0 [], 5, 3) := by decide

/-- S9. -/
theorem test_stagingReset :
    see (fun t => (t.wr, t.rd, t.occupied, t.stagingWord 7)) .stagingReset (withStaged eight 7 (start 64 8)) =
      some (0, 0, 0, 7#32) := by decide

/-- S10. -/
theorem test_occupied :
    see (fun t => t.ret) .occupied (withStaged eight 7 (start 64 8)) = some (.int 1) := by decide

/-! ## Ingest: I2 to I25 -/

/-- A state in BEAM_ON. -/
def beam (S M : Nat) : State := { emptyBanks (start S M) with spillState := .beamOn }

/-- I2: the cursor wraps. -/
theorem test_scan_empty :
    see (fun t => (t.bankCursor, t.phase)) .scan { beam 64 8 with bankCursor := 15#4 } = some (0#4, .scan) := by decide

/-- I3. -/
theorem test_scan_full :
    see (fun t => (t.hdrReg, t.phase, t.bankCursor)) .scan
      { withRecord 3#4 0x00300000#32 [] 0#32 (beam 64 8) with bankCursor := 3#4 } =
      some (0x00300000#32, .check, 3#4) := by decide

/-- A state in CHECK on bank 2. -/
def atCheck (S : Nat) (h f : Word) (n : Nat) : State :=
  { withStaged (List.replicate n 1#32) 0 (withRecord 2#4 h [] f (beam S 8)) with
    phase := .check, hdrReg := h, bankCursor := 2#4 }

/-- What CHECK leaves: count, phase, and the fault vector (bit 0 overflow, bit 1 count, bit 2 identifier, R153). -/
def checks (s : State) (n : Nat) (ph : Phase) (flt : BitVec 3) : Bool :=
  ends .check s (fun t => t.cntReg == n && t.phase == ph && t.flt == flt)

/-- I7, I8: the exact fit is accepted, one word less is an overflow. -/
theorem test_check_fit :
    checks (atCheck 1025 0x40000000#32 9#32 0) 1024 .pushHdr 0b000#3 ∧
    checks (atCheck 1024 0x40000000#32 9#32 0) 1024 .halt 0b001#3 ∧
    checks (atCheck 8 0x00300000#32 9#32 4) 3 .pushHdr 0b000#3 ∧
    checks (atCheck 8 0x00100000#32 9#32 8) 1 .halt 0b001#3 := by decide

/-- The identifiers of I14 to I16: the footer's low bits. -/
def named (s : State) : State :=
  { s with cfg := { s.cfg with bankIds := [(0x00300000#32, 0xF00D0007#32, 7#4), (0x40100000#32, 0xF00D0007#32, 7#4),
      (0x00300000#32, 0xF00D0002#32, 2#4)] } }

/-- I10, I11, I14, I15, I16. -/
theorem test_check_faults :
    checks (atCheck 64 0x800FFFFF#32 9#32 0) 0 .halt 0b010#3 ∧
    checks (atCheck 8 0x7FF00000#32 9#32 4) 2047 .halt 0b010#3 ∧
    checks (named (atCheck 64 0x00300000#32 0xF00D0007#32 0)) 3 .pushHdr 0b100#3 ∧
    checks (named (atCheck 64 0x40100000#32 0xF00D0007#32 0)) 1025 .halt 0b110#3 ∧
    checks (named (atCheck 64 0x00300000#32 0xF00D0002#32 0)) 3 .pushHdr 0b000#3 := by decide

/-- A record of count 5 in flight in bank 0, at a phase. -/
def inCopy (ph : Phase) (cnt pay staged : Nat) : State :=
  { withStaged (List.replicate staged 1#32) 0
      (withRecord 0#4 0x00500000#32 [0xA0#32, 0xA1#32, 0xA2#32, 0xA3#32] 0xF00D0001#32 (beam 64 8)) with
    phase := ph, hdrReg := 0x00500000#32, ftrReg := 0xF00D0001#32, cntReg := cnt, payIdx := pay }

/-- I17, I18. -/
theorem test_pushHdr :
    see (fun t => (t.stagingWord 0, t.wr, t.occupied, t.payIdx, t.phase)) .pushHdr (inCopy .pushHdr 5 9 0) =
      some (0x00500000#32, 1, 1, 1, .pushPay) ∧
    see (fun t => (t.wr, t.payIdx, t.phase)) .pushHdr (inCopy .pushHdr 1 9 0) = some (1, 1, .pushFtr) := by decide

/-- I19, I20: the word is copied verbatim. -/
theorem test_pushPay :
    see (fun t => (t.stagingWord 1, t.wr, t.payIdx, t.phase)) .pushPay (inCopy .pushPay 5 1 1) =
      some (0xA0#32, 2, 2, .pushPay) ∧
    see (fun t => (t.stagingWord 4, t.wr, t.payIdx, t.phase)) .pushPay (inCopy .pushPay 5 4 4) =
      some (0xA3#32, 5, 4, .pushFtr) := by decide

/-- I25: a late push, in READY. -/
theorem test_pushPay_late :
    see (fun t => (t.stagingWord 3, t.wr, t.occupied, t.payIdx, t.spillState)) .pushPay
      { inCopy .pushPay 5 3 3 with spillState := .ready, rd := 3, occupied := 0 } =
      some (0xA2#32, 4, 1, 4, .ready) := by decide

/-- I21. -/
theorem test_pushFtr :
    see (fun t => (t.stagingWord 5, t.wr, t.occupied, t.phase)) .pushFtr (inCopy .pushFtr 5 4 5) =
      some (0xF00D0001#32, 6, 6, .clear) := by decide

/-- I22. -/
theorem test_clear :
    see (fun t => (t.bankWord 15#4 0, t.bankCursor, t.phase)) .clear
      { withRecord 15#4 0x00100000#32 [] 0#32 (beam 64 8) with bankCursor := 15#4, phase := .clear } =
      some (0#32, 0#4, .scan) := by decide

/-- I4, I24: outside BEAM_ON, and halted, the enabled step is IDLE. -/
theorem test_idle :
    pollingStep { beam 64 8 with spillState := .beamOff } = .idle ∧
    see (fun t => (t.phase, t.spillState)) .idle { beam 64 8 with phase := .halt } = some (.halt, .beamOn) := by decide

/-! ## DRAIN and MBOX_READ: D1 to D8, D11 -/

/-- An edge latched, the line high. -/
def served (s : State) : State := { s with edgeLatch := true, lineLevel := true }

/-- The first eight mailbox words. -/
def box (t : State) : List Word := (List.range 8).map t.mailboxWord

/-- D2: the buffer is not empty afterwards. -/
theorem test_drain_first :
    ends .drain (served (withStaged eight 0 (beam 64 8))) (fun t =>
      box t == [7#32, 0#32, 1#32, 2#32, 3#32, 4#32, 5#32, 6#32] && t.rd == 7 && t.occupied == 1 &&
      t.spillState == .beamOff && !t.ind0 && t.ind1 && !t.edgeLatch) := by decide

/-- The state D3 starts from, after D2. -/
def afterD2 : State :=
  { withStaged eight 7 (beam 64 8) with
    spillState := .beamOff, ind0 := false, ind1 := true
    mailbox := words 0 [7#32, 0#32, 1#32, 2#32, 3#32, 4#32, 5#32, 6#32] [] }

/-- D3: the tail of the frame before stays. -/
theorem test_drain_last :
    ends .drain (served afterD2) (fun t =>
      box t == [1#32, 7#32, 1#32, 2#32, 3#32, 4#32, 5#32, 6#32] && t.rd == 8 && t.occupied == 0 &&
      t.spillState == .ready && t.ind0 && t.ind1) := by decide

/-- D11. -/
theorem test_mboxRead :
    see (fun t => t.ret) (.mboxRead 1) { start 64 8 with mailbox := words 0 [2#32, 9#32] [] } =
      some (.word 9#32) := by decide

/-! ## Spill state machine: F1, F2, F4, F7 -/

/-- F1, F2: every header is lost, the flag is kept, HALT is left. -/
theorem test_beginSpill :
    ends .beginSpill
      { withStaged eight 8 (withRecord 7#4 0x00300000#32 [] 9#32 (start 64 8)) with
        phase := .halt, startEn := true, bankCursor := 5#4, ind1 := true, fltStagingOvf := true }
      (fun t => t.spillState == .beamOn && t.phase == .scan && t.bankCursor == 0#4 && t.wr == 0 && t.rd == 0 &&
        t.occupied == 0 && t.ind0 && !t.ind1 && t.fltStagingOvf &&
        t.bankWord 7#4 0 == 0#32 && t.bankWord 15#4 0 == 0#32 && t.bankWord 7#4 1021 == 9#32) := by decide

/-- F4. -/
theorem test_setStart :
    see (fun t => (t.startEn, pollingStep t)) (.setStart true) (start 64 8) = some (true, .beginSpill) := by decide

/-- F7, in its two halves. -/
theorem test_indicators :
    see (fun t => (t.ind0, t.ind1)) (.indicatorClear 0) (start 64 8) = some (false, false) ∧
    see (fun t => (t.ind0, t.ind1)) (.indicatorSet 1) { start 64 8 with ind0 := false } = some (false, true) := by decide

/-! ## Synchronizer: Y1 to Y3, Y7 -/

/-- Y1, Y7. -/
theorem test_lineRise :
    see (fun t => (t.lineLevel, t.edgeLatch)) .lineRise (start 64 8) = some (true, true) ∧
    see (fun t => (t.lineLevel, t.edgeLatch)) .lineRise { start 64 8 with lineLevel := true } = some (true, false) := by
  decide

/-- Y2, Y3. -/
theorem test_lineFall :
    see (fun t => (t.lineLevel, t.edgeLatch)) .lineFall { start 64 8 with lineLevel := true } = some (false, false) ∧
    see (fun t => (t.lineLevel, t.edgeLatch)) .lineFall
      { start 64 8 with lineLevel := true, cfg := { conf 64 8 with edgeBoth := true } } = some (false, true) := by decide

/-- R149, R150. -/
theorem test_readLevel_acknowledge :
    see (fun t => t.ret) .readLevel (served (start 64 8)) = some (.level true) ∧
    see (fun t => (t.edgeLatch, t.lineLevel)) .acknowledge (served (start 64 8)) = some (false, true) := by decide

/-! ## Reset and the diagnostic write: X3 to X5, R153 -/

/-- X3: the line keeps its level, the bank its header. -/
theorem test_reset :
    ends .reset
      (served { inCopy .pushPay 5 3 9 with
        spillState := .beamOff, rd := 7, occupied := 2, ind0 := false, ind1 := true, fltIdMismatch := true })
      (fun t => t.spillState == .ready && t.phase == .scan && t.bankCursor == 0#4 && t.wr == 0 && t.rd == 0 &&
        t.occupied == 0 && !t.edgeLatch && t.lineLevel && t.ind0 && !t.ind1 && t.flt == 0#3 &&
        t.bankWord 0#4 0 == 0x00500000#32) := by decide

theorem test_diagnosticWrite : exec .diagnosticWrite State.reset = .next State.reset := rfl

/-! ## Witnesses: for each statement with hypotheses, concrete states and operands that meet them

`witness_<Name>` is for `Obligations.<Name>`. A hypothesis that an instruction answers a next state is met through
`ends`, whose `true` is such a state (`next_of_ends`). -/

theorem next_of_ends {i : Instr} {s : State} {p : State → Bool} (h : ends i s p = true) :
    ∃ t, exec i s = .next t ∧ p t = true := by
  unfold ends at h
  split at h
  · exact ⟨_, ‹_›, h⟩
  · cases h
  · cases h

theorem conf_valid {S M : Nat} (hS : 1 ≤ S) (hM : 2 ≤ M) : (conf S M).Valid :=
  ⟨hS, hM, by show 20 ≤ 30; decide, by show 30 ≤ 31; decide, by show 1 ≤ 1021; decide, by show 1021 < 1024; decide⟩

theorem cursorInv_of {s : State}
    (h : s.rd ≤ s.wr ∧ s.wr ≤ s.cfg.stagingCapacity ∧ s.occupied = s.wr - s.rd ∧
      (s.spillState = .beamOn → s.rd = 0)) : CursorInv s := ⟨h.1, h.2.1, h.2.2.1, h.2.2.2⟩

/-- The part of the invariant that is tested by evaluation. -/
def invTest (s : State) : Bool :=
  Memory.wf s.bank && Memory.wf s.staging && Memory.wf s.mailbox && Memory.within bankSpaceSize s.bank &&
  Memory.within s.cfg.stagingCapacity s.staging && Memory.within s.cfg.mailboxCapacity s.mailbox &&
  decide (s.rd ≤ s.wr ∧ s.wr ≤ s.cfg.stagingCapacity ∧ s.occupied = s.wr - s.rd ∧
      (s.spillState = .beamOn → s.rd = 0)) &&
  (List.range s.wr).all (fun a => decide (s.rd ≤ a → (Memory.get s.staging a).isSome = true)) &&
  decide (s.spillState = .beamOn → ∀ b : BankIdx, (Memory.get s.bank (bankAddr b 0)).isSome = true) &&
  decide (inFlight s = true → s.headerOf s.bankCursor = s.hdrReg ∧ s.hdrReg ≠ 0#32) &&
  decide (latched s = true → s.cntReg = wordCount s.cfg s.hdrReg ∧ 1 ≤ s.cntReg ∧ s.cntReg ≤ Config.bankCapacity) &&
  decide (latched s = true → s.ftrReg = s.bankWord s.bankCursor s.cfg.footerOffset) &&
  decide (s.phase = .pushPay → 1 ≤ s.payIdx ∧ s.payIdx + 1 ≤ s.cntReg) &&
  decide (s.cntReg < 2 ^ countWidth s.cfg ∧ s.payIdx < 2 ^ countWidth s.cfg) &&
  decide (s.phase = .pushHdr → s.wr + s.cntReg + 1 ≤ s.cfg.stagingCapacity) &&
  decide (s.phase = .pushPay → s.wr + (s.cntReg - s.payIdx) + 1 ≤ s.cfg.stagingCapacity) &&
  decide (s.phase = .pushFtr → s.wr + 1 ≤ s.cfg.stagingCapacity) && scriptOfSteps s

theorem inv_of_test {s : State} (hv : s.cfg.Valid) (h : invTest s = true) : Inv s := by
  simp only [invTest, Bool.and_eq_true, decide_eq_true_eq, List.all_eq_true, List.mem_range] at h
  obtain ⟨⟨⟨⟨⟨⟨⟨⟨⟨⟨⟨⟨⟨⟨⟨⟨⟨m1, m2⟩, m3⟩, m4⟩, m5⟩, m6⟩, c⟩, w1⟩, w2⟩, r1⟩, r2⟩, r3⟩, r4⟩, r5⟩, r6⟩, r7⟩, r8⟩, sc⟩ := h
  exact ⟨hv, ⟨m1, m2, m3, m4, m5, m6⟩, cursorInv_of c, ⟨r1, r2, r3, r4, r5, r6, r7, r8⟩,
    ⟨fun a h1 h2 => w1 a h2 h1, w2⟩, sc⟩

theorem cleanReady_of {s : State} (h : s.spillState = .ready ∧ s.phase = .scan ∧ s.edgeLatch = false ∧
    s.occupied = 0 ∧ s.fltStagingOvf = false ∧ s.fltBankCount = false ∧ s.fltIdMismatch = false) : CleanReady s :=
  ⟨⟨h.1, .inl h.2.1, h.2.2.1, h.2.2.2.1⟩, h.2.1, h.2.2.2.2⟩

/-! ### Event words -/

theorem witness_DecodeOfEncode :
    WellFormed (.fill 0#4 1#32 (List.replicate 1023 0#32) 0#32) = true ∧ WellFormed (.mboxRead 0xFFFFFFFF) = true ∧
    WellFormed (.readPayloadWord 15#4 1023) = true ∧ WellFormed (.setStart true) = true :=
  ⟨test_wellFormed_fill.2, by decide, by decide, rfl⟩

theorem witness_EncodeOfDecode :
    decode ⟨0x040F#16, [0x00200000#32, 0xD0#32, 0xF0#32]⟩ = .ok (.fill 15#4 0x00200000#32 [0xD0#32] 0xF0#32) ∧
    (∀ b p f, Instr.fill 15#4 0x00200000#32 [0xD0#32] 0xF0#32 ≠ .fill b 0#32 p f) ∧
    decode ⟨0x0400#16, [0#32, 0xF0#32]⟩ = .ok (.fill 0#4 0#32 [] 0xF0#32) :=
  ⟨by decide, fun _ _ _ h => absurd (Instr.fill.inj h).2.1 (by decide), by decide⟩

/-- One word for each way to be reserved, each at the boundary of its range, and a script that holds one. -/
theorem witness_ReservedEventWordsInvalid :
    ((0x1800#16).extractLsb' 14 2 = 0b00#2 ∧ 6 ≤ ((0x1800#16).extractLsb' 10 4).toNat) ∧
    ((0x6000#16).extractLsb' 14 2 = 0b01#2 ∧ 8 ≤ ((0x6000#16).extractLsb' 10 4).toNat) ∧
    ((0x8400#16).extractLsb' 14 2 = 0b10#2 ∧ 1 ≤ ((0x8400#16).extractLsb' 10 4).toNat) ∧
    ((0xFC00#16).extractLsb' 14 2 = 0b11#2 ∧ ((0xFC00#16).extractLsb' 10 4).toNat = 15) ∧
    ((0x0410#16).extractLsb' 10 6 = 0b000001#6 ∧ (0x0410#16).extractLsb' 4 6 ≠ 0#6) ∧
    ((0x1002#16).extractLsb' 10 6 = 0b000100#6 ∧ (0x1002#16).extractLsb' 1 9 ≠ 0#9) ∧
    ((0x4001#16).extractLsb' 10 6 ≠ 0b000001#6 ∧ (0x4001#16).extractLsb' 10 6 ≠ 0b000100#6 ∧
      (0x4001#16).extractLsb' 0 10 ≠ 0#10) ∧
    ({ start 64 8 with script := [⟨0x4001#16, []⟩] } : State).script = ⟨0x4001#16, []⟩ :: [] := by decide

theorem witness_OpcodeTableUnambiguous :
    (encode (.fill 15#4 0#32 [] 0#32)).word &&& (tableRow (.fill 0#4 0#32 [] 0#32)).2 =
      (tableRow (.fill 0#4 0#32 [] 0#32)).1 ∧
    (encode (.setStart true)).word &&& (tableRow (.setStart false)).2 = (tableRow (.setStart false)).1 := by decide

/-! ### Which step is taken -/

theorem witness_StepRunsScriptedEvent :
    ({ start 64 8 with script := [⟨0x8000#16, []⟩, ⟨0x0800#16, []⟩] } : State).script =
      ⟨0x8000#16, []⟩ :: [⟨0x0800#16, []⟩] ∧ decode ⟨0x8000#16, []⟩ = .ok .drain := by decide

/-- A state in a given phase and spill state. -/
def poised (ph : Phase) (sp : SpillState) (on : Bool) : State :=
  { start 64 8 with phase := ph, spillState := sp, startEn := on }

theorem idle_taken {s : State} (he : enabled .idle s = true) : exec .idle s = .next (record (encode .idle) s) := by
  show takeStep .idle (fun t => t) s = _
  exact takeStep_of_enabled he

/-- The block parked in BEAM_OFF, the polling agent idling: a run without script. -/
def parked (n : Nat) : State :=
  match n with
  | 0 => poised .scan .beamOff false
  | k + 1 => record (encode .idle) (turn (parked k))

theorem parked_shape (n : Nat) :
    (parked n).phase = .scan ∧ (parked n).spillState = .beamOff ∧ (parked n).edgeLatch = false ∧
    (parked n).script = [] := by
  induction n with
  | zero => decide
  | succ n ih => exact ih

theorem parked_isRun : IsRun parked := by
  intro n
  obtain ⟨hp, hs, hl, hc⟩ := parked_shape n
  have hi : pollingStep (parked n) = .idle := by simp [pollingStep, hp, hs]
  rw [step_of_unscripted hc, coreChoice_of_clear hl, hi]
  exact idle_taken (by simp [enabled, hp, hs])

/-- An edge latched and withdrawn in BEAM_OFF, its DRAIN, and IDLE from then on. -/
def withdrawn (n : Nat) : State :=
  match n with
  | 0 => { poised .scan .beamOff false with edgeLatch := true }
  | 1 => record (encode .drain) (acknowledge { poised .scan .beamOff false with edgeLatch := true })
  | k + 2 => record (encode .idle) (withdrawn (k + 1))

/-- The steps of `withdrawn`. -/
def withdrawnStep (n : Nat) : Instr :=
  match n with
  | 0 => .drain
  | _ + 1 => .idle

theorem withdrawn_shape (n : Nat) :
    (withdrawn (n + 1)).phase = .scan ∧ (withdrawn (n + 1)).spillState = .beamOff ∧
    (withdrawn (n + 1)).edgeLatch = false := by
  induction n with
  | zero => decide
  | succ n ih => exact ih

theorem withdrawn_isExecution : IsExecution withdrawn withdrawnStep := by
  intro n
  match n with
  | 0 => exact ⟨rfl, rfl, rfl⟩
  | k + 1 =>
    obtain ⟨hp, hs, _⟩ := withdrawn_shape k
    have he : enabled .idle (withdrawn (k + 1)) = true := by simp [enabled, hp, hs]
    exact ⟨rfl, he, idle_taken he⟩

theorem withdrawn_fair : WeaklyFair withdrawn (fun n => some (withdrawnStep n)) where
  handler n h := by
    have := h (n + 1) (Nat.le_succ n)
    rw [show enabled .drain (withdrawn (n + 1)) = (withdrawn (n + 1)).edgeLatch from rfl, (withdrawn_shape n).2.2] at this
    exact absurd this (by decide)
  polling n := ⟨n + 1, .idle, Nat.le_succ n, rfl, rfl⟩

theorem witness_UnscriptedStepIsCoreAgent :
    (beam 64 8).script = [] ∧ (beam 64 8).edgeLatch = false ∧
    (served (beam 64 8)).script = [] ∧ (served (beam 64 8)).edgeLatch = true ∧
    IsRun parked ∧ (parked 0).script = [] ∧ (parked 0).spillState = .beamOff ∧ (parked 0).edgeLatch = false ∧
    IsExecution withdrawn withdrawnStep ∧ WeaklyFair withdrawn (fun n => some (withdrawnStep n)) ∧
    (withdrawn 0).edgeLatch = true :=
  ⟨rfl, rfl, rfl, rfl, parked_isRun, rfl, rfl, rfl, withdrawn_isExecution, withdrawn_fair, rfl⟩

/-- Every row of the dispatch table has its states: each phase, spill state and start level occurs. -/
theorem witness_PollingDispatchTable (ph : Phase) (sp : SpillState) (on : Bool) :
    (poised ph sp on).phase = ph ∧ (poised ph sp on).spillState = sp ∧ (poised ph sp on).startEn = on ∧
    Instr.isPolling .beginSpill = true := ⟨rfl, rfl, rfl, rfl⟩

theorem witness_DisabledStepHasNoEffect :
    Instr.isStep .drain = true ∧ enabled .drain State.reset = false ∧
    enabled (.fill 3#4 1#32 [] 0#32) bankStart = false ∧ enabled .lineFall State.reset = false ∧
    enabled .scan (poised .halt .beamOn true) = false ∧ enabled .beginSpill (poised .scan .ready false) = false := by
  decide

/-! ### Environment steps -/

theorem witness_LineRiseSetsLatch :
    (start 64 8).lineLevel = false ∧ (served (start 64 8)).lineLevel = true := by decide

theorem witness_LineFallLowersLevel :
    (served (start 64 8)).lineLevel = true ∧ (start 64 8).lineLevel = false ∧
    ({ served (start 64 8) with cfg := { conf 64 8 with edgeBoth := true } } : State).cfg.edgeBoth = true ∧
    ({ served (start 64 8) with cfg := { conf 64 8 with edgeBoth := true } } : State).lineLevel = true := by decide

theorem witness_SetStartSetsLevel :
    (poised .scan .ready false).spillState = .ready ∧ (poised .scan .ready false).phase = .scan ∧
    (poised .halt .ready false).spillState = .ready ∧ (poised .halt .ready false).phase = .halt ∧
    ends (.setStart true) (poised .halt .ready false) (fun t => enabled .beginSpill t) = true := by decide

theorem witness_MboxReadReturnsWord : 7 < (start 64 8).cfg.mailboxCapacity := by decide

theorem witness_FillWritesRecord :
    bankStart.cfg.Valid ∧ (List.replicate 1023 (1#32 : Word)).length < 1024 ∧ ([] : List Word).length < 1024 ∧
    0x80000000#32 ≠ 0#32 ∧ bankStart.bankWord 4#4 0 = 0#32 ∧ bankStart.bankWord 3#4 0 ≠ 0#32 := by
  refine ⟨conf_valid (by decide) (by decide), ?_, by decide, by decide, by decide, by decide⟩
  rw [List.length_replicate]; decide

/-! ### Ingest -/

theorem witness_ScanExaminesOneBank :
    (beam 64 8).phase = .scan ∧ (beam 64 8).spillState = .beamOn ∧
    (beam 64 8).bankWord (beam 64 8).bankCursor 0 = 0#32 ∧
    (withRecord 0#4 0x80000000#32 [] 0#32 (beam 64 8)).phase = .scan ∧
    (withRecord 0#4 0x80000000#32 [] 0#32 (beam 64 8)).spillState = .beamOn ∧
    (withRecord 0#4 0x80000000#32 [] 0#32 (beam 64 8)).bankWord 0#4 0 ≠ 0#32 := by decide

theorem witness_SweepOfEmptyBanks :
    (beam 64 8).phase = .scan ∧ (beam 64 8).spillState = .beamOn ∧
    ∀ b : BankIdx, (beam 64 8).bankWord b 0 = 0#32 := by decide

/-- The count's four ranges at their boundaries: 0, 1025, 1024 without room, 1024 in an exact fit. -/
theorem witness_CheckValidatesRecord :
    (conf 1024 8).Valid ∧ (conf 1025 8).Valid ∧ (atCheck 1024 0x40000000#32 9#32 0).phase = .check ∧
    wordCount (conf 64 8) 0x800FFFFF#32 = 0 ∧ wordCount (conf 64 8) 0x40100000#32 = 1025 ∧
    wordCount (conf 64 8) 0x40000000#32 = 1024 ∧ wordCount (conf 64 8) 0x00100000#32 = 1 ∧
    (atCheck 1024 0x40000000#32 9#32 0).cfg.stagingCapacity < (atCheck 1024 0x40000000#32 9#32 0).wr + 1024 + 1 ∧
    (atCheck 1025 0x40000000#32 9#32 0).wr + 1024 + 1 ≤ (atCheck 1025 0x40000000#32 9#32 0).cfg.stagingCapacity :=
  ⟨conf_valid (by decide) (by decide), conf_valid (by decide) (by decide), by decide⟩

theorem witness_HaltLeftOnlyByNewSpillOrReset :
    (poised .halt .beamOn false).phase = .halt ∧
    (∃ t, exec .check (poised .halt .beamOn false) = .next t) ∧
    (∃ t, exec .drain (served (poised .halt .beamOn false)) = .next t) ∧
    (∃ t, exec .reset (poised .halt .ready true) = .next t) ∧
    (∃ t, exec .beginSpill (poised .halt .ready true) = .next t) ∧
    (poised .halt .ready true).spillState = .ready ∧ (poised .halt .ready true).startEn = true :=
  ⟨rfl, ⟨_, rfl⟩, ⟨_, rfl⟩, ⟨_, rfl⟩, ⟨_, rfl⟩, rfl, rfl⟩

theorem witness_PushHdrStagesHeader :
    (inCopy .pushHdr 5 0 63).phase = .pushHdr ∧
    (inCopy .pushHdr 5 0 63).wr < (inCopy .pushHdr 5 0 63).cfg.stagingCapacity := by decide

/-- The last payload word, one before it, and the highest offset. -/
theorem witness_PushPayStagesWord :
    (inCopy .pushPay 5 4 4).phase = .pushPay ∧ (inCopy .pushPay 5 4 4).wr < (conf 64 8).stagingCapacity ∧
    (inCopy .pushPay 5 4 4).payIdx = (inCopy .pushPay 5 4 4).cntReg - 1 ∧
    (inCopy .pushPay 5 3 4).payIdx ≠ (inCopy .pushPay 5 3 4).cntReg - 1 ∧
    (inCopy .pushPay 1024 1023 4).payIdx < 1024 ∧ 1 ≤ (inCopy .pushPay 1 0 4).cntReg := by decide

theorem witness_PushFtrStagesFooter :
    (inCopy .pushFtr 5 4 63).phase = .pushFtr ∧ (inCopy .pushFtr 5 4 63).wr < (conf 64 8).stagingCapacity := by decide

theorem witness_ClearFreesBank : (inCopy .clear 5 4 6).phase = .clear := by decide

theorem witness_IdleChangesNothing :
    ((poised .scan .beamOff true).phase = .scan ∧ (poised .scan .beamOff true).spillState = .beamOff) ∧
    ((poised .scan .ready false).phase = .scan ∧ (poised .scan .ready false).spillState = .ready ∧
      (poised .scan .ready false).startEn = false) ∧
    ((poised .halt .beamOn true).phase = .halt ∧
      ¬ ((poised .halt .beamOn true).spillState = .ready ∧ (poised .halt .beamOn true).startEn = true)) := by decide

theorem witness_BeginSpillInitialises :
    (poised .scan .ready true).spillState = .ready ∧ (poised .scan .ready true).phase = .scan ∧
    (poised .halt .ready true).spillState = .ready ∧ (poised .halt .ready true).phase = .halt ∧
    (poised .halt .ready true).startEn = true := by decide

theorem witness_CleanSpillStartReached :
    CleanReady (poised .scan .ready true) ∧ (poised .scan .ready true).startEn = true :=
  ⟨cleanReady_of (by decide), rfl⟩

/-- The counts 1 and 1024, each in an exact fit. -/
theorem witness_RecordIngestedWhole :
    let s := withRecord 0#4 0x40000000#32 [] 9#32 (beam 1025 8)
    let u := withRecord 0#4 0x00100000#32 [] 9#32 (beam 2 8)
    s.cfg.Valid ∧ u.cfg.Valid ∧ s.phase = .scan ∧ s.spillState = .beamOn ∧ s.bankWord s.bankCursor 0 ≠ 0#32 ∧
    1024 = wordCount s.cfg (s.bankWord s.bankCursor 0) ∧ s.wr + 1024 + 1 ≤ s.cfg.stagingCapacity ∧
    u.phase = .scan ∧ u.spillState = .beamOn ∧ u.bankWord u.bankCursor 0 ≠ 0#32 ∧
    1 = wordCount u.cfg (u.bankWord u.bankCursor 0) ∧ u.wr + 1 + 1 ≤ u.cfg.stagingCapacity :=
  ⟨conf_valid (by decide) (by decide), conf_valid (by decide) (by decide), by decide⟩

/-! ### Drain -/

/-- A full batch with a word left, in BEAM_ON and in READY; an empty buffer; the level low. -/
theorem witness_DrainMovesOneBatch :
    let s := served (withStaged eight 0 (beam 64 8))
    let r := served (withStaged eight 0 (start 64 8))
    let u := served (withStaged [] 0 (beam 64 8))
    let v := { beam 64 8 with edgeLatch := true }
    s.cfg.Valid ∧ CursorInv s ∧ CursorInv r ∧ CursorInv u ∧ s.edgeLatch = true ∧ s.lineLevel = true ∧
    u.edgeLatch = true ∧ u.lineLevel = true ∧ 7 = min (s.cfg.mailboxCapacity - 1) s.occupied ∧ s.occupied ≠ 7 ∧
    s.spillState = .beamOn ∧ r.occupied ≠ 7 ∧ r.spillState ≠ .beamOn ∧
    0 = min (u.cfg.mailboxCapacity - 1) u.occupied ∧ u.occupied = 0 ∧ v.edgeLatch = true ∧ v.lineLevel = false :=
  ⟨conf_valid (by decide) (by decide), cursorInv_of (by decide), cursorInv_of (by decide), cursorInv_of (by decide),
    by decide⟩

theorem witness_DrainDrivesSpillState :
    (∃ t, exec .drain (served (withStaged eight 1 (start 64 8))) = .next t ∧ (t.occupied == 0) = true) ∧
    (∃ t, exec .drain (served (withStaged eight 0 (beam 64 8))) = .next t ∧ (t.occupied != 0) = true) ∧
    (∃ t, exec .drain (served (withStaged eight 0 (start 64 8))) = .next t ∧ (t.occupied != 0) = true) ∧
    (beam 64 8).spillState = .beamOn ∧ (start 64 8).spillState ≠ .beamOn :=
  ⟨next_of_ends (by decide), next_of_ends (by decide), next_of_ends (by decide), by decide⟩

theorem witness_DrainNoOpLaw :
    ({ beam 64 8 with edgeLatch := true } : State).edgeLatch = true ∧
    ({ beam 64 8 with edgeLatch := true } : State).lineLevel = false ∧ (beam 64 8).edgeLatch = false ∧
    (∃ t, exec .drain (served (withStaged eight 0 (beam 64 8))) = .next t ∧ (t.lineLevel == true) = true) :=
  ⟨rfl, rfl, rfl, next_of_ends (by decide)⟩

/-- Nothing staged: one DRAIN; fifteen words with M = 8: three. -/
theorem witness_DrainsNeededBySpill :
    let s := withStaged (List.replicate 15 1#32) 0 (beam 64 8)
    s.cfg.Valid ∧ CursorInv s ∧ s.spillState = .beamOn ∧ s.lineLevel = false ∧ 15 = s.occupied ∧
    3 = max 1 ((15 + (s.cfg.mailboxCapacity - 2)) / (s.cfg.mailboxCapacity - 1)) ∧
    CursorInv (beam 64 8) ∧ (beam 64 8).lineLevel = false ∧ 0 = (beam 64 8).occupied ∧
    1 = max 1 ((0 + ((beam 64 8).cfg.mailboxCapacity - 2)) / ((beam 64 8).cfg.mailboxCapacity - 1)) :=
  ⟨conf_valid (by decide) (by decide), cursorInv_of (by decide), by decide, by decide, by decide, by decide,
    cursorInv_of (by decide), by decide⟩

/-- A record of count 3 in bank 0, in BEAM_ON with S = 4 and M = 3, at a phase with so many words staged. -/
def flight (ph : Phase) (pay staged : Nat) : State :=
  { withStaged (List.replicate staged 1#32) 0
      (withRecord 0#4 0x00300000#32 [0xB0#32, 0xB1#32] 0xF00D0002#32 (beam 4 3)) with
    phase := ph, hdrReg := 0x00300000#32, ftrReg := 0xF00D0002#32, cntReg := 3, payIdx := pay }

theorem flight_valid (ph : Phase) (pay staged : Nat) : (flight ph pay staged).cfg.Valid :=
  conf_valid (by decide) (by decide)

/-- A state between spills that meets the invariant, a start requested. -/
def between : State := { withStaged [1#32, 2#32] 1 (start 4 3) with startEn := true }

/-- The invariant along the copy of a record, from SCAN to CLEAR, halted, with an edge latched, and between spills. -/
theorem inv_along_record :
    Inv (flight .scan 1 0) ∧ Inv (flight .check 1 0) ∧ Inv (flight .pushHdr 1 0) ∧ Inv (flight .pushPay 1 1) ∧
    Inv (flight .pushPay 2 2) ∧ Inv (flight .pushFtr 2 3) ∧ Inv (flight .clear 2 4) ∧ Inv (flight .halt 1 4) ∧
    Inv (served (flight .pushPay 2 2)) ∧ Inv between :=
  ⟨inv_of_test (flight_valid _ _ _) (by decide), inv_of_test (flight_valid _ _ _) (by decide),
    inv_of_test (flight_valid _ _ _) (by decide), inv_of_test (flight_valid _ _ _) (by decide),
    inv_of_test (flight_valid _ _ _) (by decide), inv_of_test (flight_valid _ _ _) (by decide),
    inv_of_test (flight_valid _ _ _) (by decide), inv_of_test (flight_valid _ _ _) (by decide),
    inv_of_test (flight_valid .pushPay 2 2) (by decide),
    inv_of_test (conf_valid (by decide) (by decide)) (by decide)⟩

theorem witness_StagingIsFifo :
    (Inv (flight .pushHdr 1 0) ∧ enabled .pushHdr (flight .pushHdr 1 0) = true ∧
      ∃ t, exec .pushHdr (flight .pushHdr 1 0) = .next t) ∧
    (Inv (flight .pushPay 2 2) ∧ enabled .pushPay (flight .pushPay 2 2) = true ∧
      ∃ t, exec .pushPay (flight .pushPay 2 2) = .next t) ∧
    (Inv (flight .pushFtr 2 3) ∧ enabled .pushFtr (flight .pushFtr 2 3) = true ∧
      ∃ t, exec .pushFtr (flight .pushFtr 2 3) = .next t) ∧
    (Inv (served (flight .pushPay 2 2)) ∧ (served (flight .pushPay 2 2)).lineLevel = true ∧
      ∃ t, exec .drain (served (flight .pushPay 2 2)) = .next t) ∧
    (Inv between ∧ enabled .beginSpill between = true ∧ (∃ t, exec .beginSpill between = .next t) ∧
      (∃ t, exec .reset between = .next t) ∧ ∃ t, exec (.setStart false) between = .next t) := by
  obtain ⟨_, _, h, _, p, f, _, _, d, b⟩ := inv_along_record
  exact ⟨⟨h, rfl, _, rfl⟩, ⟨p, rfl, _, rfl⟩, ⟨f, rfl, _, rfl⟩, ⟨d, rfl, _, rfl⟩, b, rfl, ⟨_, rfl⟩, ⟨_, rfl⟩, _, rfl⟩

/-- The counts 1 and 6 with M = 8: the shortest record and the longest that one frame takes. -/
theorem witness_RecordRoundTrip :
    let s := withRecord 0#4 0x00600000#32 [1#32, 2#32, 3#32, 4#32, 5#32] 9#32 (beam 7 8)
    let u := withRecord 0#4 0x00100000#32 [] 9#32 (beam 2 3)
    s.cfg.Valid ∧ u.cfg.Valid ∧ s.phase = .scan ∧ s.spillState = .beamOn ∧ s.wr = 0 ∧ s.rd = 0 ∧ s.occupied = 0 ∧
    s.lineLevel = false ∧ s.bankWord s.bankCursor 0 ≠ 0#32 ∧ 6 = wordCount s.cfg (s.bankWord s.bankCursor 0) ∧
    6 + 1 ≤ s.cfg.stagingCapacity ∧ 6 + 1 ≤ s.cfg.mailboxCapacity - 1 ∧
    u.phase = .scan ∧ u.spillState = .beamOn ∧ u.wr = 0 ∧ u.rd = 0 ∧ u.occupied = 0 ∧ u.lineLevel = false ∧
    u.bankWord u.bankCursor 0 ≠ 0#32 ∧ 1 = wordCount u.cfg (u.bankWord u.bankCursor 0) ∧
    1 + 1 ≤ u.cfg.stagingCapacity ∧ 1 + 1 ≤ u.cfg.mailboxCapacity - 1 :=
  ⟨conf_valid (by decide) (by decide), conf_valid (by decide) (by decide), by decide⟩

/-! ### Synchronizer -/

theorem witness_EdgesMergeAndWithdraw :
    (beam 64 8).lineLevel = false ∧ ∃ u, exec .drain (served (beam 64 8)) = .next u := ⟨rfl, _, rfl⟩

theorem witness_EdgeLatchWriters :
    ((beam 64 8).edgeLatch = false ∧ ∃ t, exec .lineRise (beam 64 8) = .next t ∧ t.edgeLatch = true) ∧
    ((served (beam 64 8)).edgeLatch = true ∧
      ∃ t, exec .acknowledge (served (beam 64 8)) = .next t ∧ t.edgeLatch = false) ∧
    ∃ t, exec .drain (served (beam 64 8)) = .next t := ⟨⟨rfl, _, rfl, rfl⟩, ⟨rfl, _, rfl, rfl⟩, _, rfl⟩

theorem witness_EdgePendingAcrossSpillStart :
    let s := served (poised .scan .ready true)
    let u := served (poised .halt .ready true)
    s.cfg.Valid ∧ s.spillState = .ready ∧ s.phase = .scan ∧ s.startEn = true ∧ s.edgeLatch = true ∧
    s.lineLevel = true ∧ s.occupied = 0 ∧ u.phase = .halt :=
  ⟨conf_valid (by decide) (by decide), by decide⟩

/-! ### Primitives -/

theorem witness_BankStorePrimitives :
    bankStart.cfg.Valid ∧ 1 ≤ 1023 ∧ 1023 < 1024 ∧ bankStart.bankWord 4#4 0 = 0#32 ∧
    Instr.isStep (.fill 4#4 1#32 [] 0#32) = true ∧ ∃ u, exec (.fill 4#4 1#32 [] 0#32) bankStart = .next u :=
  ⟨conf_valid (by decide) (by decide), by decide, by decide, by decide, rfl, _, rfl⟩

theorem witness_PushPrimitive :
    (withStaged eight 0 (start 9 8)).wr < (withStaged eight 0 (start 9 8)).cfg.stagingCapacity ∧
    (withStaged eight 0 (start 8 8)).wr = (withStaged eight 0 (start 8 8)).cfg.stagingCapacity := by decide

theorem witness_PopBatchPrimitive :
    CursorInv (withStaged eight 1 (start 8 8)) ∧ 7 = min 9 (withStaged eight 1 (start 8 8)).occupied ∧
    (withStaged eight 8 (start 8 8)).occupied = 0 := ⟨cursorInv_of (by decide), by decide, by decide⟩

/-! ### Frames and whole-machine rules -/

/-- Each polling-agent step answers a next state where it is enabled. -/
theorem witness_PollingAgentFrame :
    (∃ t, exec .scan (flight .scan 1 0) = .next t) ∧ (∃ t, exec .check (flight .check 1 0) = .next t) ∧
    (∃ t, exec .pushHdr (flight .pushHdr 1 0) = .next t) ∧ (∃ t, exec .pushPay (flight .pushPay 1 1) = .next t) ∧
    (∃ t, exec .pushFtr (flight .pushFtr 2 3) = .next t) ∧ (∃ t, exec .clear (flight .clear 2 4) = .next t) ∧
    (∃ t, exec .beginSpill between = .next t) ∧ (∃ t, exec .idle (flight .halt 1 4) = .next t) ∧
    Instr.isPolling .clear = true :=
  ⟨⟨_, rfl⟩, ⟨_, rfl⟩, ⟨_, rfl⟩, ⟨_, rfl⟩, ⟨_, rfl⟩, ⟨_, rfl⟩, ⟨_, rfl⟩, ⟨_, rfl⟩, rfl⟩

theorem witness_HandlerAgentFrame :
    (∃ t, exec .drain (served (withStaged eight 0 (beam 64 8))) = .next t) ∧
    drainSize (served (withStaged eight 0 (beam 64 8))) < 8 ∧
    ∃ t, exec .drain { beam 64 8 with edgeLatch := true } = .next t := ⟨⟨_, rfl⟩, by decide, _, rfl⟩

theorem witness_EnvironmentFrame :
    Instr.isStep (.fill 4#4 1#32 [] 0#32) = true ∧ Instr.isPolling (.fill 4#4 1#32 [] 0#32) = false ∧
    (∃ t, exec (.fill 4#4 1#32 [] 0#32) bankStart = .next t) ∧ ∃ t, exec (.mboxRead 7) bankStart = .next t :=
  ⟨rfl, rfl, ⟨_, rfl⟩, _, rfl⟩

theorem witness_PrimitiveFrame :
    Instr.isStep (.clearHeader 3#4) = false ∧ (∃ t, exec (.clearHeader 3#4) bankStart = .next t) ∧
    ∃ t, exec (.push 1#32) (withStaged eight 0 (start 8 8)) = .next t := ⟨rfl, ⟨_, rfl⟩, _, rfl⟩

theorem witness_ParametersConstant : ∃ t, exec .reset bankStart = .next t := ⟨_, rfl⟩

theorem witness_SpillStateTransitions :
    (∃ t, exec .beginSpill between = .next t ∧ (t.spillState == .beamOn) = true) ∧
    (∃ t, exec .drain (served (withStaged eight 0 (beam 64 8))) = .next t ∧ (t.spillState == .beamOff) = true) ∧
    (∃ t, exec .drain (served (beam 64 8)) = .next t ∧ (t.spillState == .ready) = true) :=
  ⟨next_of_ends (by decide), next_of_ends (by decide), next_of_ends (by decide)⟩

theorem witness_PhaseTransitions :
    (Inv (flight .pushPay 1 1) ∧ Instr.isPolling .pushPay = true ∧ enabled .pushPay (flight .pushPay 1 1) = true ∧
      ∃ t, exec .pushPay (flight .pushPay 1 1) = .next t) ∧
    (Inv (served (flight .pushPay 2 2)) ∧ Instr.isPolling .drain = false ∧
      ∃ t, exec .drain (served (flight .pushPay 2 2)) = .next t) ∧
    (Inv between ∧ ∃ t, exec .reset between = .next t) := by
  obtain ⟨_, _, _, p, _, _, _, _, d, b⟩ := inv_along_record
  exact ⟨⟨p, rfl, rfl, _, rfl⟩, ⟨d, rfl, _, rfl⟩, b, _, rfl⟩

theorem witness_BankCursorMoves :
    (∃ t, exec .scan (beam 64 8) = .next t ∧ (t.bankCursor != (beam 64 8).bankCursor) = true) ∧
    (∃ t, exec .clear (inCopy .clear 5 4 6) = .next t ∧ (t.bankCursor != (inCopy .clear 5 4 6).bankCursor) = true) ∧
    (∃ t, exec .reset { beam 64 8 with bankCursor := 15#4 } = .next t ∧ (t.bankCursor != 15#4) = true) :=
  ⟨next_of_ends (by decide), next_of_ends (by decide), next_of_ends (by decide)⟩

theorem witness_FaultFlagsSticky :
    (({ beam 64 8 with fltBankCount := true } : State).flag .bankCount = true ∧
      ∃ t, exec .reset { beam 64 8 with fltBankCount := true } = .next t ∧ (!t.flag .bankCount) = true) ∧
    ((atCheck 64 0x800FFFFF#32 9#32 0).flag .bankCount = false ∧
      ∃ t, exec .check (atCheck 64 0x800FFFFF#32 9#32 0) = .next t ∧ t.flag .bankCount = true) :=
  ⟨⟨rfl, next_of_ends (p := fun t => !t.flag .bankCount) (by decide)⟩, rfl,
    next_of_ends (p := fun t => t.flag .bankCount) (by decide)⟩

theorem witness_WritePermissions :
    (Inv (flight .clear 2 4) ∧ ∃ t, exec .clear (flight .clear 2 4) = .next t) ∧
    (Inv between ∧ ∃ t, exec .beginSpill between = .next t) ∧
    (Inv (served (flight .pushPay 2 2)) ∧ ∃ t, exec .drain (served (flight .pushPay 2 2)) = .next t) ∧
    (Inv (flight .scan 1 0) ∧ (flight .scan 1 0).bankWord 0#4 0 ≠ 0#32 ∧
      ∃ t, exec (.fill 1#4 0x00100000#32 [] 0#32) (flight .scan 1 0) = .next t) := by
  obtain ⟨c, _, _, _, _, _, l, _, d, b⟩ := inv_along_record
  exact ⟨⟨l, _, rfl⟩, ⟨b, _, rfl⟩, ⟨d, _, rfl⟩, c, by decide, _, rfl⟩

theorem witness_OutputsNeverRead :
    hideOutputs (start 64 8) = hideOutputs { start 64 8 with ind0 := false, fltBankCount := true, ret := .int 1 } ∧
    (start 64 8).ind0 ≠ ({ start 64 8 with ind0 := false, fltBankCount := true, ret := .int 1 } : State).ind0 :=
  ⟨rfl, by decide⟩

/-! ### Invariants -/

theorem witness_InvariantAtReset : (conf 1 2).Valid := conf_valid (by decide) (by decide)

theorem witness_EveryStepKeepsInvariant : Inv (flight .pushPay 1 1) ∧ Inv (served (flight .pushPay 2 2)) :=
  ⟨inv_along_record.2.2.2.1, inv_along_record.2.2.2.2.2.2.2.2.1⟩

theorem witness_CursorInvariant :
    CursorInv (flight .pushPay 1 1) ∧ (flight .pushPay 1 1).spillState = .beamOn ∧
    (∃ t, exec .pushPay (flight .pushPay 1 1) = .next t) ∧ ∃ t, exec .reset between = .next t :=
  ⟨inv_along_record.2.2.2.1.cursors, rfl, ⟨_, rfl⟩, _, rfl⟩

/-- In BEAM_ON, one transition entered since reset. -/
def oneSpill : State :=
  { served (withStaged eight 0 (beam 64 8)) with
    history := [.transition .ready .beamOn, .step ⟨0x0000#16, []⟩], script := [⟨0x8000#16, []⟩] }

theorem witness_SpillOrderLaw : OrderLaw oneSpill ∧ ∃ t, step oneSpill = .next t := ⟨⟨by decide, by decide⟩, _, rfl⟩

theorem witness_MemoriesStayCanonical :
    MemoryInv (flight .pushPay 1 1) ∧ ∃ t, exec .pushPay (flight .pushPay 1 1) = .next t :=
  ⟨inv_along_record.2.2.2.1.memory, _, rfl⟩

/-- The last place of each space, and another. -/
theorem witness_ReadAfterWrite :
    1023 < 1024 ∧ 63 < (start 64 8).cfg.stagingCapacity ∧ 7 < (start 64 8).cfg.mailboxCapacity ∧
    ((4#4 : BankIdx) ≠ 3#4 ∨ 0 ≠ 1023) := by decide

theorem witness_AccessOutsideSpaceFaults :
    (start 64 8).cfg.mailboxCapacity ≤ 8 ∧ (inCopy .pushPay 1025 1024 0).phase = .pushPay ∧
    1024 ≤ (inCopy .pushPay 1025 1024 0).payIdx ∧ 0 < (withStaged [1#32, 2#32] 1 (start 1 8)).occupied ∧
    (withStaged [1#32, 2#32] 1 (start 1 8)).cfg.stagingCapacity ≤ (withStaged [1#32, 2#32] 1 (start 1 8)).rd := by decide

end Sys2Proof.Tests
end

section
/-! What an instruction does, said once (`effect`, `exec_next`), and the two obligations of 00_scope.md: a step whose
guard is false has no effect (R9), and no instruction writes the parameters or the waiting script (R5 to R7, R33). -/

namespace Sys2Proof.Machine

/-! ## What an instruction does where its guard holds -/

/-- The state an instruction makes of a state, before the history entry of a step (R77, R78). -/
def effect (i : Instr) (s : State) : Except Fault State :=
  match i with
  | .reset => .ok (resetBlock s)
  | .fill b h p f => fillBank b h p f s
  | .lineRise => .ok { s with lineLevel := true, edgeLatch := true }
  | .lineFall => .ok (lowerLine s)
  | .setStart v => .ok { s with startEn := v }
  | .mboxRead k => consumerRead k s
  | .scan => .ok (scanBank s)
  | .check => checkRecord s
  | .pushHdr => .ok (pushThen s.hdrReg afterHeader s)
  | .pushPay => pushPayload s
  | .pushFtr => .ok (pushThen s.ftrReg afterFooter s)
  | .clear => .ok (freeBank s)
  | .beginSpill => .ok (beginSpill s)
  | .idle => .ok s
  | .drain => drainBatch s
  | .headerOf b => .ok { s with ret := .word (s.headerOf b) }
  | .isFull b => .ok { s with ret := .bool (s.isFull b) }
  | .wordCount h => .ok { s with ret := .int (wordCount s.cfg h) }
  | .readPayloadWord b k => (readPayloadWord b k s).map fun w => { s with ret := .word w }
  | .readFooter b => (readFooter b s).map fun w => { s with ret := .word w }
  | .clearHeader b => .ok (clearHeader b s)
  | .stagingReset => .ok (resetCursors s)
  | .push w => .ok (pushWord w s)
  | .popBatch m => (popBatch m s).map fun (words, t) => { t with ret := .batch (batchSize m s) words }
  | .occupied => .ok { s with ret := .int s.occupied }
  | .readLevel => .ok { s with ret := .level s.readLevel }
  | .acknowledge => .ok (acknowledge s)
  | .indicatorSet k => .ok (indicatorSet k s)
  | .indicatorClear k => .ok (indicatorClear k s)
  | .diagnosticWrite => .ok s

/-- Every step is its effect under its guard (R9, R77). -/
theorem exec_of_step {i : Instr} (hi : i.isStep = true) (s : State) : exec i s = tryStep i (effect i) s := by
  cases i
  case reset | fill | lineRise | lineFall | setStart | mboxRead | scan | check | pushHdr | pushPay | pushFtr | clear
      | beginSpill | idle | drain => rfl
  all_goals cases hi

theorem map_of_answerWord {r : Except Fault Word} {s t : State} (h : answerWord r s = .next t) :
    r.map (fun w => { s with ret := .word w }) = .ok t := by
  cases r with
  | ok w => cases h; rfl
  | error e => cases h

theorem effect_of_execPopBatch {m : Nat} {s t : State} (h : execPopBatch m s = .next t) :
    effect (.popBatch m) s = .ok t := by
  unfold execPopBatch at h
  split at h
  · rename_i hpop
    cases h
    simp [effect, hpop, Except.map]
  · cases h

/-- A primitive that answers has had its effect, with no guard and no history entry (R78). -/
theorem effect_of_primitive {i : Instr} {s t : State} (hi : i.isStep = false) (h : exec i s = .next t) :
    effect i s = .ok t := by
  cases i
  case readPayloadWord | readFooter => exact map_of_answerWord h
  case popBatch => exact effect_of_execPopBatch h
  case headerOf | isFull | wordCount | clearHeader | stagingReset | push | occupied | readLevel | acknowledge
      | indicatorSet | indicatorClear | diagnosticWrite => cases h; rfl
  all_goals cases hi

/-- Everything an instruction that answers can have done: nothing, or its effect, which a step also enters in the
history. -/
theorem exec_next {i : Instr} {s t : State} (h : exec i s = .next t) :
    (i.isStep = true ∧ enabled i s = false ∧ t = s) ∨
    (i.isStep = true ∧ enabled i s = true ∧ ∃ u, effect i s = .ok u ∧ t = record (encode i) u) ∨
    (i.isStep = false ∧ effect i s = .ok t) := by
  cases hi : i.isStep with
  | false => exact .inr (.inr ⟨rfl, effect_of_primitive hi h⟩)
  | true =>
    obtain hdone | hnone := tryStep_next (exec_of_step hi s ▸ h)
    · exact .inr (.inl ⟨rfl, hdone⟩)
    · exact .inl ⟨rfl, hnone⟩

/-! ## A step whose guard is false -/

theorem tryStep_of_disabled {i : Instr} {f : State → Except Fault State} {s : State} (h : enabled i s = false) :
    tryStep i f s = .next s := by simp [tryStep, h]

/-- Settles O9: every step is its effect under its guard. -/
theorem disabledStepHasNoEffect : Obligations.DisabledStepHasNoEffect := by
  intro i s hstep hguard
  rw [exec_of_step hstep, tryStep_of_disabled hguard]

/-! ## The part of the state no instruction writes -/

/-- The parameters (log 1) and the waiting script (log 5). -/
def State.setup (s : State) : Params × List Event := (s.cfg, s.script)

theorem record_setup (e : Event) (s : State) : (record e s).setup = s.setup := rfl

theorem setSpill_setup (x : SpillState) (s : State) : (setSpill x s).setup = s.setup := by simp [State.setup]

theorem raise_setup (c : Condition) (s : State) : (raise c s).setup = s.setup := by simp [State.setup]

theorem indicatorSet_setup (i : Fin 2) (s : State) : (indicatorSet i s).setup = s.setup := by
  unfold indicatorSet; split <;> rfl

theorem indicatorClear_setup (i : Fin 2) (s : State) : (indicatorClear i s).setup = s.setup := by
  unfold indicatorClear; split <;> rfl

theorem pushWord_setup (w : Word) (s : State) : (pushWord w s).setup = s.setup := by
  rcases Nat.lt_or_ge s.wr s.cfg.stagingCapacity with h | h
  · rw [pushWord_of_lt w h]; rfl
  · rw [pushWord_of_ge w h, raise_setup]

theorem pushThen_setup {f : State → State} (hf : ∀ u, (f u).setup = u.setup) (w : Word) (s : State) :
    (pushThen w f s).setup = s.setup := by
  rcases Nat.lt_or_ge s.wr s.cfg.stagingCapacity with h | h
  · rw [pushThen_of_lt w f h, hf, pushWord_setup]
  · rw [pushThen_of_ge w f h, raise_setup]

theorem afterPayload_setup (s : State) : (afterPayload s).setup = s.setup := by
  unfold afterPayload; split <;> rfl

theorem pushPayload_setup {s t : State} (h : pushPayload s = .ok t) : t.setup = s.setup := by
  unfold pushPayload at h
  split at h
  · cases h
  · cases h; exact pushThen_setup afterPayload_setup _ s

theorem popBatch_setup {m : Nat} {ws : List Word} {s t : State} (h : popBatch m s = .ok (ws, t)) :
    t.setup = s.setup := by
  obtain ⟨_, rfl⟩ := popBatch_ok h
  rfl

theorem fillBank_setup {b : BankIdx} {hd ftr : Word} {p : List Word} {s t : State}
    (h : fillBank b hd p ftr s = .ok t) : t.setup = s.setup := by
  unfold fillBank at h
  split at h
  · cases h
  · rename_i u hu
    split at h
    · cases h
    · rename_i v hv
      obtain ⟨_, rfl⟩ := bankWrite_ok hv
      obtain ⟨_, rfl⟩ := bankWrite_ok h
      have hrun : u.setup = s.setup := by rw [(bankWriteRun_ok hu).1]; rfl
      exact hrun

theorem resetBlock_setup (s : State) : (resetBlock s).setup = s.setup := setSpill_setup .ready s

theorem scanBank_setup (s : State) : (scanBank s).setup = s.setup := by
  unfold scanBank; split <;> rfl

theorem checkRecord_setup {s t : State} (h : checkRecord s = .ok t) : t.setup = s.setup := by
  obtain ⟨_, _, _, _, _, rfl⟩ := checkRecord_ok h
  rfl

theorem clearHeaders_setup (n : Nat) (s : State) : (clearHeaders n s).setup = s.setup := by
  induction n with
  | zero => rfl
  | succ n ih => exact ih

theorem beginSpill_setup (s : State) : (beginSpill s).setup = s.setup := by
  simpa [State.setup, beginSpill] using clearHeaders_setup 16 s

theorem firstDrain_setup (s : State) : (firstDrain s).setup = s.setup := by
  rw [(firstDrain_spec s).1]; rfl

theorem moveBatch_setup {s t : State} (h : moveBatch s = .ok t) : t.setup = s.setup := by
  rw [(moveBatch_ok h).1]; rfl

theorem endOfDrain_setup (s : State) : (endOfDrain s).setup = s.setup := by
  rw [endOfDrain_spec]; rfl

theorem drainBatch_setup {s t : State} (h : drainBatch s = .ok t) : t.setup = s.setup := by
  unfold drainBatch at h
  split at h
  · split at h
    · cases h
    · rename_i u hu
      cases h
      calc (acknowledge (endOfDrain u)).setup
        _ = (endOfDrain u).setup := rfl
        _ = u.setup := endOfDrain_setup u
        _ = (firstDrain s).setup := moveBatch_setup hu
        _ = s.setup := firstDrain_setup s
  · cases h; rfl

theorem consumerRead_setup {k : Nat} {s t : State} (h : consumerRead k s = .ok t) : t.setup = s.setup := by
  unfold consumerRead at h
  split at h
  · cases h
  · cases h; rfl

theorem exists_of_map_ok {α β ε : Type} {f : α → β} {x : Except ε α} {b : β} (h : x.map f = .ok b) :
    ∃ a, x = .ok a ∧ f a = b := by
  cases x with
  | ok a => cases h; exact ⟨a, rfl, rfl⟩
  | error e => cases h

theorem effect_setup {i : Instr} {s t : State} (h : effect i s = .ok t) : t.setup = s.setup := by
  cases i with
  | reset => cases h; exact resetBlock_setup s
  | fill => exact fillBank_setup h
  | mboxRead => exact consumerRead_setup h
  | scan => cases h; exact scanBank_setup s
  | check => exact checkRecord_setup h
  | pushHdr => cases h; exact pushThen_setup (f := afterHeader) (fun _ => rfl) _ s
  | pushPay => exact pushPayload_setup h
  | pushFtr => cases h; exact pushThen_setup (f := afterFooter) (fun _ => rfl) _ s
  | beginSpill => cases h; exact beginSpill_setup s
  | drain => exact drainBatch_setup h
  | readPayloadWord | readFooter => obtain ⟨_, _, rfl⟩ := exists_of_map_ok h; rfl
  | popBatch =>
    obtain ⟨⟨words, u⟩, hpop, rfl⟩ := exists_of_map_ok h
    have hu : u.setup = s.setup := popBatch_setup hpop
    exact hu
  | push w => cases h; exact pushWord_setup w s
  | indicatorSet k => cases h; exact indicatorSet_setup k s
  | indicatorClear k => cases h; exact indicatorClear_setup k s
  | lineRise | lineFall | setStart | clear | idle | headerOf | isFull | wordCount | clearHeader | stagingReset
  | occupied | readLevel | acknowledge | diagnosticWrite => cases h; rfl

theorem exec_setup {i : Instr} {s t : State} (h : exec i s = .next t) : t.setup = s.setup := by
  obtain ⟨_, _, rfl⟩ | ⟨_, _, u, hu, rfl⟩ | ⟨_, hu⟩ := exec_next h
  · rfl
  · rw [record_setup, effect_setup hu]
  · exact effect_setup hu

/-- Settles O47: the parameters and the script are the two parts of `State.setup`, which `exec` leaves as it is. -/
theorem parametersConstant : Obligations.ParametersConstant := by
  intro i s t h
  obtain ⟨hcfg, hscript⟩ := Prod.mk.inj (exec_setup h)
  exact ⟨hcfg, hscript⟩

end Sys2Proof.Machine
end

section
/-! The inversion layer: every operation as one record update, so that what it leaves unchanged holds by `rfl`
(`effect_frame`). -/

namespace Sys2Proof.Machine

/-! ## Each operation as one record update -/

theorem setSpill_eq (x : SpillState) (s : State) :
    setSpill x s = { s with spillState := x, history := (setSpill x s).history } := by
  unfold setSpill
  split
  · rename_i h; rw [← h]
  · rfl

theorem indicatorSet_eq (k : Fin 2) (s : State) :
    indicatorSet k s = { s with ind0 := s.ind0 || decide (k = 0), ind1 := s.ind1 || decide (k ≠ 0) } := by
  unfold indicatorSet
  split <;> simp [*]

theorem indicatorClear_eq (k : Fin 2) (s : State) :
    indicatorClear k s = { s with ind0 := s.ind0 && decide (k ≠ 0), ind1 := s.ind1 && decide (k = 0) } := by
  unfold indicatorClear
  split <;> simp [*]

/-- RESET (R176, R40). -/
theorem resetBlock_eq (s : State) :
    resetBlock s = { s with
      spillState := .ready, phase := .scan, bankCursor := 0#4, wr := 0, rd := 0, occupied := 0
      hdrReg := Config.freeHdr s.tick, ftrReg := Config.freeFtr s.tick
      cntReg := Config.freeCnt s.tick % 2 ^ countWidth s.cfg, payIdx := Config.freePay s.tick % 2 ^ countWidth s.cfg
      edgeLatch := false, ind0 := true, ind1 := false
      fltStagingOvf := false, fltBankCount := false, fltIdMismatch := false
      tick := s.tick + 1, history := (setSpill .ready s).history } := by
  unfold resetBlock
  rw [setSpill_eq]
  rfl

/-- SCAN moves on from an empty bank and captures the header of a full one (R106). -/
theorem scanBank_eq (s : State) :
    scanBank s = { s with
      bankCursor := if s.headerOf s.bankCursor = 0#32 then nextBank s.bankCursor else s.bankCursor
      hdrReg := if s.headerOf s.bankCursor = 0#32 then s.hdrReg else s.headerOf s.bankCursor
      phase := if s.headerOf s.bankCursor = 0#32 then s.phase else .check } := by
  unfold scanBank
  split <;> rfl

theorem afterPayload_eq (s : State) :
    afterPayload s = { s with
      payIdx := if s.payIdx + 1 = s.cntReg then s.payIdx else s.payIdx + 1
      phase := if s.payIdx + 1 = s.cntReg then .pushFtr else s.phase } := by
  unfold afterPayload
  split <;> rfl

/-- A word staged at the write cursor (R98). -/
def stageWord (w : Word) (s : State) : State :=
  { s with staging := Memory.put s.staging s.wr w, wr := s.wr + 1, occupied := s.occupied + 1 }

/-- A push step either stages its word and goes on, or takes STAGING_OVERFLOW (R98). -/
theorem pushThen_cases (w : Word) (f : State → State) (s : State) :
    (s.wr < s.cfg.stagingCapacity ∧ pushThen w f s = f (stageWord w s)) ∨
    (s.cfg.stagingCapacity ≤ s.wr ∧ pushThen w f s = { s with fltStagingOvf := true, phase := .halt }) := by
  rcases Nat.lt_or_ge s.wr s.cfg.stagingCapacity with h | h
  · exact .inl ⟨h, by rw [pushThen_of_lt w f h, pushWord_of_lt w h]; rfl⟩
  · exact .inr ⟨h, by rw [pushThen_of_ge w f h]; rfl⟩

/-- The primitive is a push step with nothing after it. -/
theorem pushWord_eq_pushThen (w : Word) (s : State) : pushWord w s = pushThen w (fun t => t) s := by
  unfold pushThen
  split <;> rfl

theorem pushPayload_ok {s t : State} (h : pushPayload s = .ok t) :
    s.payIdx < 1024 ∧ t = pushThen (s.bankWord s.bankCursor s.payIdx) afterPayload s := by
  unfold pushPayload at h
  split at h
  · cases h
  · rename_i w hw
    obtain ⟨ho, rfl⟩ := bankRead_ok hw
    cases h
    exact ⟨ho, rfl⟩

theorem clearHeaders_keeps_written (n a : Nat) (s : State) (h : (Memory.get s.bank a).isSome = true) :
    (Memory.get (clearHeaders n s).bank a).isSome = true := by
  induction n with
  | zero => exact h
  | succ n ih => exact Memory.isSome_put _ _ _ ih

/-- BEGIN_SPILL: its own elements, and banks whose sixteen headers are zero and whose other words stand (R133). -/
theorem beginSpill_spec (s : State) : ∃ bank history,
    beginSpill s = { s with
      bank := bank, bankCursor := 0#4, wr := 0, rd := 0, occupied := 0, phase := .scan
      ind0 := true, ind1 := false, spillState := .beamOn, history := history } ∧
    (∀ b o, o < 1024 → Memory.read .bank bank (bankAddr b o) = if o = 0 then 0#32 else s.bankWord b o) ∧
    (Memory.wf s.bank = true ∧ Memory.within bankSpaceSize s.bank = true →
      Memory.wf bank = true ∧ Memory.within bankSpaceSize bank = true) ∧
    (∀ a, (Memory.get s.bank a).isSome = true → (Memory.get bank a).isSome = true) ∧
    ∀ b, (Memory.get bank (bankAddr b 0)).isSome = true := by
  obtain ⟨hframe, hword, hfits, hheaders⟩ := clearHeaders_spec 16 (by omega) s
  refine ⟨(clearHeaders 16 s).bank, (beginSpill s).history, ?_, fun b o ho => ?_, hfits,
    fun a => clearHeaders_keeps_written 16 a s, fun b => hheaders b b.isLt⟩
  · unfold beginSpill
    rw [show Config.numBanks = 16 from rfl]
    generalize clearHeaders 16 s = u at hframe ⊢
    rw [setSpill_eq, hframe]
    rfl
  · have hb : b.toNat < 16 := b.isLt
    exact (hword b o ho).trans (by simp only [hb, true_and])

theorem consumerRead_ok {k : Nat} {s t : State} (h : consumerRead k s = .ok t) :
    t = { s with ret := t.ret } := by
  unfold consumerRead at h
  split at h
  · cases h
  · cases h; rfl

/-- What FILL does: the header of its bank, words of no other bank, nothing that was written is forgotten (R91). -/
theorem fillBank_ok {b : BankIdx} {hd f : Word} {p : List Word} {s t : State} (h : fillBank b hd p f s = .ok t) :
    t = { s with bank := t.bank } ∧ t.bankWord b 0 = hd ∧
    (∀ c o, c ≠ b → o < 1024 → t.bankWord c o = s.bankWord c o) ∧
    (Memory.wf s.bank = true ∧ Memory.within bankSpaceSize s.bank = true →
      Memory.wf t.bank = true ∧ Memory.within bankSpaceSize t.bank = true) ∧
    (∀ a, (Memory.get s.bank a).isSome = true → (Memory.get t.bank a).isSome = true) := by
  unfold fillBank at h
  split at h
  · cases h
  · rename_i u hu
    split at h
    · cases h
    · rename_i v hv
      obtain ⟨hoff, rfl⟩ := bankWrite_ok hv
      obtain ⟨_, rfl⟩ := bankWrite_ok h
      obtain ⟨hframe, hword, hcanon, hkept⟩ := bankWriteRun_ok hu
      refine ⟨?_, ?_, fun c o hc ho => ?_, fun hm => ?_, fun a ha => ?_⟩
      · rw [hframe]; rfl
      · simp [putBank_bankWord]
      · rw [putBank_bankWord _ _ (by omega) ho, putBank_bankWord _ _ hoff ho, hword c o ho]
        simp [hc]
      · exact Memory.put_keeps _ _ (bankAddr_lt b (by omega)) (Memory.put_keeps _ _ (bankAddr_lt b hoff) (hcanon hm))
      · exact Memory.isSome_put _ _ _ (Memory.isSome_put _ _ _ (hkept a ha))

/-- What DRAIN does with the level low: it withdraws the edge (R129). With the level high: one batch goes to the
mailbox, and the spill state moves on (R121 to R124). -/
theorem drainBatch_ok {s t : State} (h : drainBatch s = .ok t) :
    (s.lineLevel = false ∧ t = { s with edgeLatch := false }) ∨
    (s.lineLevel = true ∧
      t = { s with
        edgeLatch := false
        mailbox := t.mailbox
        rd := (if s.spillState = .beamOn then 0 else s.rd) + drainSize s
        occupied := s.occupied - drainSize s
        spillState := if s.occupied - drainSize s = 0 then .ready
          else if s.spillState = .beamOn then .beamOff else s.spillState
        ind0 := t.ind0, ind1 := t.ind1, history := t.history } ∧
      (Memory.wf s.mailbox = true ∧ Memory.within s.cfg.mailboxCapacity s.mailbox = true →
        Memory.wf t.mailbox = true ∧ Memory.within s.cfg.mailboxCapacity t.mailbox = true)) := by
  unfold drainBatch at h
  split at h
  · rename_i hlevel
    split at h
    · cases h
    · rename_i u hu
      cases h
      obtain ⟨hfirst, hspill⟩ := firstDrain_spec s
      obtain ⟨hbatch, _, hcanon⟩ := moveBatch_ok hu
      rw [hfirst] at hcanon
      refine .inr ⟨hlevel, ?_, ?_⟩
      · rw [endOfDrain_spec, hbatch, hspill, hfirst]; rfl
      · rw [endOfDrain_spec]; exact hcanon
  · rename_i hlevel
    cases h
    exact .inl ⟨by simpa [State.readLevel] using hlevel, rfl⟩

/-! ## What an instruction leaves unchanged -/

/-- A state with the listed elements of its own, every other element of an older state. -/
def overlay (es : List Elem) (s t : State) : State :=
  { t with
    spillState := if es.contains .spillState then t.spillState else s.spillState
    bankCursor := if es.contains .bankCursor then t.bankCursor else s.bankCursor
    phase := if es.contains .phase then t.phase else s.phase
    hdrReg := if es.contains .hdrReg then t.hdrReg else s.hdrReg
    ftrReg := if es.contains .ftrReg then t.ftrReg else s.ftrReg
    cntReg := if es.contains .cntReg then t.cntReg else s.cntReg
    payIdx := if es.contains .payIdx then t.payIdx else s.payIdx
    wr := if es.contains .wr then t.wr else s.wr
    rd := if es.contains .rd then t.rd else s.rd
    occupied := if es.contains .occupied then t.occupied else s.occupied
    bank := if es.contains .bank then t.bank else s.bank
    staging := if es.contains .staging then t.staging else s.staging
    mailbox := if es.contains .mailbox then t.mailbox else s.mailbox
    lineLevel := if es.contains .lineLevel then t.lineLevel else s.lineLevel
    edgeLatch := if es.contains .edgeLatch then t.edgeLatch else s.edgeLatch
    startEn := if es.contains .startEn then t.startEn else s.startEn
    ind0 := if es.contains .ind0 then t.ind0 else s.ind0
    ind1 := if es.contains .ind1 then t.ind1 else s.ind1
    fltStagingOvf := if es.contains .fltStagingOvf then t.fltStagingOvf else s.fltStagingOvf
    fltBankCount := if es.contains .fltBankCount then t.fltBankCount else s.fltBankCount
    fltIdMismatch := if es.contains .fltIdMismatch then t.fltIdMismatch else s.fltIdMismatch }

/-- A record update of the listed elements leaves every other element as it was. -/
theorem unchangedBut_of_overlay {es : List Elem} {s t : State} (h : t = overlay es s t) : UnchangedBut es s t := by
  intro e he
  have hout : es.contains e = false := by simpa using he
  rw [h]
  cases e <;> simp only [unchanged, overlay, State.bankWord, State.stagingWord, State.mailboxWord, hout] <;> simp

theorem UnchangedBut.refl (es : List Elem) (s : State) : UnchangedBut es s s :=
  unchangedBut_of_overlay (by simp [overlay])

theorem UnchangedBut.mono {es fs : List Elem} {s t : State} (h : UnchangedBut es s t) (hsub : es ⊆ fs) :
    UnchangedBut fs s t := fun e he => h e (fun hin => he (hsub hin))

theorem record_frame (ev : Event) (s : State) : UnchangedBut [] s (record ev s) := unchangedBut_of_overlay rfl

theorem unchanged_trans {e : Elem} {s t u : State} (hst : unchanged e s t) (htu : unchanged e t u) :
    unchanged e s u := by
  cases e
  case bank => exact fun b o => (htu b o).trans (hst b o)
  case staging | mailbox => exact fun a => (htu a).trans (hst a)
  all_goals exact Eq.trans htu hst

theorem UnchangedBut.trans {es : List Elem} {s t u : State} (hst : UnchangedBut es s t) (htu : UnchangedBut es t u) :
    UnchangedBut es s u := fun e he => unchanged_trans (hst e he) (htu e he)

/-- What a push step writes: the staging word and the cursors, the overflow, and what comes after the push (R98). -/
theorem pushThen_frame {f : State → State} {es : List Elem} (hf : ∀ u, UnchangedBut es u (f u)) (w : Word) (s : State)
    (hes : [.staging, .wr, .occupied, .phase, .fltStagingOvf] ⊆ es) : UnchangedBut es s (pushThen w f s) := by
  obtain ⟨_, h⟩ | ⟨_, h⟩ := pushThen_cases w f s <;> rw [h]
  · have hstage : UnchangedBut [.staging, .wr, .occupied, .phase, .fltStagingOvf] s (stageWord w s) :=
      unchangedBut_of_overlay rfl
    exact (hstage.mono hes).trans (hf _)
  · have hhalt : UnchangedBut [.staging, .wr, .occupied, .phase, .fltStagingOvf] s
        { s with fltStagingOvf := true, phase := .halt } := unchangedBut_of_overlay rfl
    exact hhalt.mono hes

theorem afterPayload_frame (s : State) : UnchangedBut [.payIdx, .phase] s (afterPayload s) := by
  rw [afterPayload_eq]
  exact unchangedBut_of_overlay rfl

theorem indicatorSet_frame (s : State) :
    ∀ k : Fin 2, UnchangedBut (written (.indicatorSet k)) s (indicatorSet k s)
  | 0 => unchangedBut_of_overlay rfl
  | 1 => unchangedBut_of_overlay rfl

theorem indicatorClear_frame (s : State) :
    ∀ k : Fin 2, UnchangedBut (written (.indicatorClear k)) s (indicatorClear k s)
  | 0 => unchangedBut_of_overlay rfl
  | 1 => unchangedBut_of_overlay rfl

theorem beginSpill_frame (s : State) : UnchangedBut (written .beginSpill) s (beginSpill s) := by
  obtain ⟨_, _, h, _⟩ := beginSpill_spec s
  rw [h]
  exact unchangedBut_of_overlay rfl

theorem drainBatch_frame {s t : State} (h : drainBatch s = .ok t) : UnchangedBut (written .drain) s t := by
  obtain ⟨_, rfl⟩ | ⟨_, ht, _⟩ := drainBatch_ok h
  · exact unchangedBut_of_overlay rfl
  · rw [ht]; exact unchangedBut_of_overlay rfl

/-- An instruction writes the elements its own rule lists, and no other (R41, R77, R78). -/
theorem effect_frame {i : Instr} {s t : State} (h : effect i s = .ok t) : UnchangedBut (written i) s t := by
  cases i with
  | reset => cases h; rw [resetBlock_eq]; exact unchangedBut_of_overlay rfl
  | fill => rw [(fillBank_ok h).1]; exact unchangedBut_of_overlay rfl
  | mboxRead => rw [consumerRead_ok h]; exact unchangedBut_of_overlay rfl
  | scan => cases h; rw [scanBank_eq]; exact unchangedBut_of_overlay rfl
  | check => obtain ⟨_, _, _, _, _, rfl⟩ := checkRecord_ok h; exact unchangedBut_of_overlay rfl
  | pushHdr =>
    cases h
    exact pushThen_frame (f := afterHeader) (fun u => unchangedBut_of_overlay rfl) _ s (by simp [written])
  | pushPay =>
    obtain ⟨_, rfl⟩ := pushPayload_ok h
    exact pushThen_frame (fun u => (afterPayload_frame u).mono (by simp [written])) _ s (by simp [written])
  | pushFtr =>
    cases h
    exact pushThen_frame (f := afterFooter) (fun u => unchangedBut_of_overlay rfl) _ s (by simp [written])
  | push w =>
    cases h
    rw [pushWord_eq_pushThen]
    exact pushThen_frame (UnchangedBut.refl _) w s (by simp [written])
  | beginSpill => cases h; exact beginSpill_frame s
  | drain => exact drainBatch_frame h
  | readPayloadWord | readFooter => obtain ⟨_, _, rfl⟩ := exists_of_map_ok h; exact unchangedBut_of_overlay rfl
  | popBatch =>
    obtain ⟨⟨_, u⟩, hpop, rfl⟩ := exists_of_map_ok h
    obtain ⟨_, rfl⟩ := popBatch_ok hpop
    exact unchangedBut_of_overlay rfl
  | indicatorSet k => cases h; exact indicatorSet_frame s k
  | indicatorClear k => cases h; exact indicatorClear_frame s k
  | lineRise | lineFall | setStart | clear | idle | headerOf | isFull | wordCount | clearHeader | stagingReset
  | occupied | readLevel | acknowledge | diagnosticWrite => cases h; exact unchangedBut_of_overlay rfl

/-- The same of the instruction as the machine executes it. -/
theorem exec_frame {i : Instr} {s t : State} (h : exec i s = .next t) : UnchangedBut (written i) s t := by
  obtain ⟨_, _, rfl⟩ | ⟨_, _, u, hu, rfl⟩ | ⟨_, hu⟩ := exec_next h
  · exact UnchangedBut.refl _ _
  · exact (effect_frame hu).trans ((record_frame _ u).mono (by simp))
  · exact effect_frame hu

end Sys2Proof.Machine
end

section
/-! The invariant (R24, R46, R17 to R20, R98) part by part: what each instruction does to the memories, the cursors and
the record in flight; that every step of the block is taken and keeps it; and that it holds after reset. -/

namespace Sys2Proof.Machine

/-! ## The memories -/

/-- The three memories of a state (R46). -/
def State.memories (s : State) : Memory × Memory × Memory := (s.bank, s.staging, s.mailbox)

/-- A memory in canonical form that lists nothing outside its space (R46). -/
def Memory.Fits (size : Nat) (m : Memory) : Prop := Memory.wf m = true ∧ Memory.within size m = true

/-- What every instruction does to the memories: each stays inside its space, and no bank or staging word once written
is forgotten (R46, R56). -/
structure MemoryGrows (s t : State) : Prop where
  bank : Memory.Fits bankSpaceSize s.bank → Memory.Fits bankSpaceSize t.bank
  staging : Memory.Fits s.cfg.stagingCapacity s.staging → Memory.Fits s.cfg.stagingCapacity t.staging
  mailbox : Memory.Fits s.cfg.mailboxCapacity s.mailbox → Memory.Fits s.cfg.mailboxCapacity t.mailbox
  bank_written : ∀ a, (Memory.get s.bank a).isSome = true → (Memory.get t.bank a).isSome = true
  staging_written : ∀ a, (Memory.get s.staging a).isSome = true → (Memory.get t.staging a).isSome = true

theorem MemoryGrows.congr {s t u : State} (h : MemoryGrows s t) (hu : u.memories = t.memories) : MemoryGrows s u := by
  obtain ⟨hbank, hrest⟩ := Prod.mk.inj hu
  obtain ⟨hstaging, hmailbox⟩ := Prod.mk.inj hrest
  exact ⟨hbank ▸ h.bank, hstaging ▸ h.staging, hmailbox ▸ h.mailbox, hbank ▸ h.bank_written,
    hstaging ▸ h.staging_written⟩

theorem MemoryGrows.of_eq {s t : State} (h : t.memories = s.memories) : MemoryGrows s t :=
  MemoryGrows.congr ⟨id, id, id, fun _ => id, fun _ => id⟩ h

/-- Words written inside the banks. -/
theorem MemoryGrows.of_bank {s t : State} (hframe : t = { s with bank := t.bank })
    (hfits : Memory.Fits bankSpaceSize s.bank → Memory.Fits bankSpaceSize t.bank)
    (hkept : ∀ a, (Memory.get s.bank a).isSome = true → (Memory.get t.bank a).isSome = true) : MemoryGrows s t where
  bank := hfits
  staging := by rw [hframe]; exact id
  mailbox := by rw [hframe]; exact id
  bank_written := hkept
  staging_written := by rw [hframe]; exact fun _ => id

theorem clearHeader_memoryGrows (b : BankIdx) (s : State) : MemoryGrows s (clearHeader b s) :=
  .of_bank rfl (Memory.put_keeps _ _ (bankAddr_lt b (by omega))) fun _ => Memory.isSome_put _ _ _

theorem beginSpill_memoryGrows (s : State) : MemoryGrows s (beginSpill s) := by
  obtain ⟨bank, _, h, _, hfits, hkept, _⟩ := beginSpill_spec s
  have hbank : MemoryGrows s { s with bank := bank } := .of_bank rfl hfits hkept
  exact hbank.congr (by rw [h]; rfl)

theorem stageWord_memoryGrows (w : Word) {s : State} (h : s.wr < s.cfg.stagingCapacity) :
    MemoryGrows s (stageWord w s) where
  bank := id
  staging := Memory.put_keeps _ _ h
  mailbox := id
  bank_written := fun _ => id
  staging_written := fun _ => Memory.isSome_put _ _ _

theorem pushThen_memoryGrows {f : State → State} (hf : ∀ u, (f u).memories = u.memories) (w : Word) (s : State) :
    MemoryGrows s (pushThen w f s) := by
  obtain ⟨hroom, h⟩ | ⟨_, h⟩ := pushThen_cases w f s <;> rw [h]
  · exact (stageWord_memoryGrows w hroom).congr (hf _)
  · exact .of_eq rfl

theorem drainBatch_memoryGrows {s t : State} (h : drainBatch s = .ok t) : MemoryGrows s t := by
  obtain ⟨_, rfl⟩ | ⟨_, ht, hfits⟩ := drainBatch_ok h
  · exact .of_eq rfl
  · refine ⟨?_, ?_, hfits, ?_, ?_⟩ <;> rw [ht]
    · exact id
    · exact id
    · exact fun _ => id
    · exact fun _ => id

/-- What every instruction does to the memories. -/
theorem effect_memoryGrows {i : Instr} {s t : State} (h : effect i s = .ok t) : MemoryGrows s t := by
  cases i with
  | reset => cases h; rw [resetBlock_eq]; exact .of_eq rfl
  | fill =>
    obtain ⟨hframe, _, _, hfits, hkept⟩ := fillBank_ok h
    exact .of_bank hframe hfits hkept
  | mboxRead => rw [consumerRead_ok h]; exact .of_eq rfl
  | scan => cases h; rw [scanBank_eq]; exact .of_eq rfl
  | check => obtain ⟨_, _, _, _, _, rfl⟩ := checkRecord_ok h; exact .of_eq rfl
  | pushHdr => cases h; exact pushThen_memoryGrows (f := afterHeader) (fun _ => rfl) _ s
  | pushPay =>
    obtain ⟨_, rfl⟩ := pushPayload_ok h
    exact pushThen_memoryGrows (fun u => by rw [afterPayload_eq]; rfl) _ s
  | pushFtr => cases h; exact pushThen_memoryGrows (f := afterFooter) (fun _ => rfl) _ s
  | push w => cases h; rw [pushWord_eq_pushThen]; exact pushThen_memoryGrows (fun _ => rfl) w s
  | clear => cases h; exact (clearHeader_memoryGrows s.bankCursor s).congr rfl
  | clearHeader b => cases h; exact clearHeader_memoryGrows b s
  | beginSpill => cases h; exact beginSpill_memoryGrows s
  | drain => exact drainBatch_memoryGrows h
  | readPayloadWord | readFooter => obtain ⟨_, _, rfl⟩ := exists_of_map_ok h; exact .of_eq rfl
  | popBatch =>
    obtain ⟨⟨_, u⟩, hpop, rfl⟩ := exists_of_map_ok h
    obtain ⟨_, rfl⟩ := popBatch_ok hpop
    exact .of_eq rfl
  | indicatorSet k => cases h; rw [indicatorSet_eq]; exact .of_eq rfl
  | indicatorClear k => cases h; rw [indicatorClear_eq]; exact .of_eq rfl
  | lineRise | lineFall | setStart | idle | headerOf | isFull | wordCount | stagingReset | occupied | readLevel
  | acknowledge | diagnosticWrite => cases h; exact .of_eq rfl

theorem MemoryGrows.keeps {s t : State} (h : MemoryGrows s t) (hcfg : t.cfg = s.cfg) (hs : MemoryInv s) :
    MemoryInv t := by
  obtain ⟨hb, hbin⟩ := h.bank ⟨hs.bank_wf, hs.bank_within⟩
  obtain ⟨hst, hstin⟩ := h.staging ⟨hs.staging_wf, hs.staging_within⟩
  obtain ⟨hm, hmin⟩ := h.mailbox ⟨hs.mailbox_wf, hs.mailbox_within⟩
  exact ⟨hb, hst, hm, hbin, hcfg ▸ hstin, hcfg ▸ hmin⟩

theorem effect_cfg {i : Instr} {s t : State} (h : effect i s = .ok t) : t.cfg = s.cfg :=
  (Prod.mk.inj (effect_setup h)).1

/-! ## The cursors -/

/-- The cursor invariant reads the two cursors, the count, the spill state and the staging size (R24). -/
theorem CursorInv.congr {s t : State} (hs : CursorInv s) (hcfg : t.cfg = s.cfg) (hrd : t.rd = s.rd) (hwr : t.wr = s.wr)
    (hocc : t.occupied = s.occupied) (hspill : t.spillState = s.spillState) : CursorInv t := by
  obtain ⟨h1, h2, h3, h4⟩ := hs
  constructor <;> simp_all

theorem CursorInv.of_zero {t : State} (hrd : t.rd = 0) (hwr : t.wr = 0) (hocc : t.occupied = 0) : CursorInv t := by
  constructor <;> simp [*]

theorem CursorInv.record {s : State} (hs : CursorInv s) (e : Event) : CursorInv (record e s) :=
  hs.congr rfl rfl rfl rfl rfl

/-- A push keeps the cursors in order, whether it stages its word or overflows (R98). -/
theorem CursorInv.pushThen {f : State → State} {s : State} (hs : CursorInv s) (w : Word)
    (hf : ∀ u, CursorInv u → CursorInv (f u)) : CursorInv (pushThen w f s) := by
  obtain ⟨hle, hcap, hocc, hbeam⟩ := hs
  obtain ⟨hroom, h⟩ | ⟨_, h⟩ := pushThen_cases w f s <;> rw [h]
  · exact hf _ ⟨Nat.le_succ_of_le hle, hroom, by simp only [stageWord]; omega, hbeam⟩
  · exact ⟨hle, hcap, hocc, hbeam⟩

theorem afterPayload_keeps_cursors {s : State} (hs : CursorInv s) : CursorInv (afterPayload s) := by
  rw [afterPayload_eq]
  exact hs.congr rfl rfl rfl rfl rfl

/-- The spill state a batch leaves is never BEAM_ON (R121, R123, R124). -/
theorem drained_ne_beamOn (x : SpillState) (p : Prop) [Decidable p] :
    (if p then SpillState.ready else if x = .beamOn then .beamOff else x) ≠ .beamOn := by
  split
  · simp
  · split
    · simp
    · assumption

/-- DRAIN moves the read cursor by the words it takes, and never past the write cursor (R99, R121). -/
theorem drainBatch_keeps_cursors {s t : State} (h : drainBatch s = .ok t) (hs : CursorInv s) : CursorInv t := by
  obtain ⟨_, rfl⟩ | ⟨_, ht, _⟩ := drainBatch_ok h
  · exact hs.congr rfl rfl rfl rfl rfl
  · have hrd : (if s.spillState = .beamOn then 0 else s.rd) = s.rd := by
      split
      · exact (hs.beam_on ‹_›).symm
      · rfl
    have hsize : drainSize s ≤ s.occupied := Nat.min_le_right _ _
    obtain ⟨hle, hcap, hocc, _⟩ := hs
    rw [hrd] at ht
    rw [ht]
    refine ⟨?_, hcap, ?_, fun hbeam => absurd hbeam (drained_ne_beamOn _ _)⟩
    · show s.rd + drainSize s ≤ s.wr; omega
    · show s.occupied - drainSize s = s.wr - (s.rd + drainSize s); omega

theorem effect_keeps_cursors {i : Instr} {s t : State} (hi : i.isStep = true) (h : effect i s = .ok t)
    (hs : CursorInv s) : CursorInv t := by
  have frame := effect_frame h
  cases i with
  | reset => cases h; exact .of_zero rfl rfl rfl
  | beginSpill =>
    cases h
    obtain ⟨_, _, hspill, _⟩ := beginSpill_spec s
    rw [hspill]
    exact .of_zero rfl rfl rfl
  | pushHdr => cases h; exact hs.pushThen _ fun _ hu => hu.congr rfl rfl rfl rfl rfl
  | pushPay =>
    obtain ⟨_, rfl⟩ := pushPayload_ok h
    exact hs.pushThen _ fun _ => afterPayload_keeps_cursors
  | pushFtr => cases h; exact hs.pushThen _ fun _ hu => hu.congr rfl rfl rfl rfl rfl
  | drain => exact drainBatch_keeps_cursors h hs
  | fill | lineRise | lineFall | setStart | mboxRead | scan | check | clear | idle =>
    exact hs.congr (effect_cfg h) (frame .rd (by simp [written])) (frame .wr (by simp [written]))
      (frame .occupied (by simp [written])) (frame .spillState (by simp [written]))
  | headerOf | isFull | wordCount | readPayloadWord | readFooter | clearHeader | stagingReset | push | popBatch
  | occupied | readLevel | acknowledge | indicatorSet | indicatorClear | diagnosticWrite => cases hi

/-! ## The record in flight -/

theorem wordCount_lt (p : Params) (h : Word) : wordCount p h < 2 ^ countWidth p := BitVec.isLt _

theorem one_lt_two_pow_countWidth (p : Params) : 1 < 2 ^ countWidth p :=
  Nat.one_lt_two_pow (by unfold countWidth; omega)

theorem inFlight_of_latched {s : State} (h : latched s = true) : inFlight s = true := by
  unfold latched at h
  unfold inFlight
  cases hp : s.phase <;> simp_all

/-- With no record in flight only the registers' widths matter (R19, R20). -/
theorem RecordInv.of_idle {t : State} (hphase : t.phase = .scan ∨ t.phase = .halt)
    (hwidth : t.cntReg < 2 ^ countWidth t.cfg ∧ t.payIdx < 2 ^ countWidth t.cfg) : RecordInv t := by
  have hidle : inFlight t = false := by rcases hphase with h | h <;> simp [inFlight, h]
  have hlatched : latched t = false := by rcases hphase with h | h <;> simp [latched, h]
  constructor <;> rcases hphase with h | h <;> simp_all

/-- A step that writes none of the sequencer's registers, nor a word of the bank in flight, keeps what they mean. -/
theorem RecordInv.of_frame {s t : State} (hs : RecordInv s) (hoff : s.cfg.footerOffset < 1024) (hcfg : t.cfg = s.cfg)
    (hframe : UnchangedBut
      [.bank, .mailbox, .rd, .occupied, .spillState, .lineLevel, .edgeLatch, .startEn, .ind0, .ind1] s t)
    (hbank : inFlight s = true → ∀ o, o < 1024 → t.bankWord s.bankCursor o = s.bankWord s.bankCursor o) :
    RecordInv t := by
  have hphase : t.phase = s.phase := hframe .phase (by simp)
  have hcursor : t.bankCursor = s.bankCursor := hframe .bankCursor (by simp)
  have hhdr : t.hdrReg = s.hdrReg := hframe .hdrReg (by simp)
  have hftr : t.ftrReg = s.ftrReg := hframe .ftrReg (by simp)
  have hcnt : t.cntReg = s.cntReg := hframe .cntReg (by simp)
  have hpay : t.payIdx = s.payIdx := hframe .payIdx (by simp)
  have hwr : t.wr = s.wr := hframe .wr (by simp)
  have hflight : inFlight t = inFlight s := by simp only [inFlight, hphase]
  have hlatched : latched t = latched s := by simp only [latched, hphase]
  constructor
  case header =>
    intro h
    rw [hflight] at h
    rw [hcursor, hhdr, State.headerOf, hbank h 0 (by omega)]
    exact hs.header h
  case footer =>
    intro h
    rw [hlatched] at h
    rw [hcursor, hftr, hcfg, hbank (inFlight_of_latched h) _ hoff]
    exact hs.footer h
  case count => rw [hlatched, hcnt, hcfg, hhdr]; exact hs.count
  case index => rw [hphase, hcnt, hpay]; exact hs.index
  case width => rw [hcnt, hpay, hcfg]; exact hs.width
  case room_header => rw [hphase, hwr, hcnt, hcfg]; exact hs.room_header
  case room_payload => rw [hphase, hwr, hcnt, hpay, hcfg]; exact hs.room_payload
  case room_footer => rw [hphase, hwr, hcfg]; exact hs.room_footer

theorem scanBank_keeps_record {s : State} (hs : RecordInv s) (hphase : s.phase = .scan) : RecordInv (scanBank s) := by
  unfold scanBank
  split
  · exact .of_idle (.inl hphase) hs.width
  · rename_i hfull
    constructor
    case header => exact fun _ => ⟨rfl, hfull⟩
    case width => exact hs.width
    all_goals simp [latched]

theorem badCount_eq_false {n : Nat} : badCount n = false ↔ 1 ≤ n ∧ n ≤ 1024 := by
  rw [badCount, Bool.or_eq_false_iff, decide_eq_false_iff_not, decide_eq_false_iff_not]
  show ¬ n = 0 ∧ ¬ 1024 < n ↔ _
  omega

theorem overflows_eq_false {n : Nat} {s : State} : overflows n s = false ↔ s.wr + n + 1 ≤ s.cfg.stagingCapacity := by
  simp [overflows]

/-- CHECK lets a record pass only if its count is good and its words fit (R107). -/
theorem checkRecord_keeps_record {s t : State} (h : checkRecord s = .ok t) (hs : RecordInv s)
    (hphase : s.phase = .check) : RecordInv t := by
  obtain ⟨_, n, f, rfl, rfl, rfl⟩ := checkRecord_ok h
  have hwidth := And.intro (wordCount_lt s.cfg s.hdrReg) hs.width.2
  cases hbad : badCount (wordCount s.cfg s.hdrReg) || overflows (wordCount s.cfg s.hdrReg) s with
  | true => exact .of_idle (.inr rfl) hwidth
  | false =>
    have hheader := hs.header (by simp [inFlight, hphase])
    obtain ⟨hcount, hfit⟩ := Bool.or_eq_false_iff.mp hbad
    constructor
    case header => exact fun _ => hheader
    case count => exact fun _ => ⟨rfl, badCount_eq_false.mp hcount⟩
    case footer => exact fun _ => rfl
    case width => exact hwidth
    case room_header => exact fun _ => overflows_eq_false.mp hfit
    all_goals simp

theorem pushHdr_keeps_record {s : State} (hs : RecordInv s) (hphase : s.phase = .pushHdr) :
    RecordInv (pushThen s.hdrReg afterHeader s) := by
  have hroom := hs.room_header hphase
  obtain ⟨hcount, hlow, hhigh⟩ := hs.count (by simp [latched, hphase])
  have hfooter := hs.footer (by simp [latched, hphase])
  have hheader := hs.header (by simp [inFlight, hphase])
  have hwidth := And.intro hs.width.1 (one_lt_two_pow_countWidth s.cfg)
  rw [pushThen_of_lt _ _ (by omega), pushWord_of_lt _ (by omega)]
  constructor
  case header => exact fun _ => hheader
  case count => exact fun _ => ⟨hcount, hlow, hhigh⟩
  case footer => exact fun _ => hfooter
  case width => exact hwidth
  all_goals
    simp only [afterHeader, putStaging_cntReg, putStaging_cfg]
    by_cases hone : s.cntReg = 1 <;> simp [hone] <;> omega

theorem pushPay_keeps_record {s : State} (hs : RecordInv s) (hphase : s.phase = .pushPay) (w : Word) :
    RecordInv (pushThen w afterPayload s) := by
  have hroom := hs.room_payload hphase
  obtain ⟨hfirst, hlast⟩ := hs.index hphase
  obtain ⟨hcount, hlow, hhigh⟩ := hs.count (by simp [latched, hphase])
  have hfooter := hs.footer (by simp [latched, hphase])
  have hheader := hs.header (by simp [inFlight, hphase])
  obtain ⟨hcntWidth, hpayWidth⟩ := hs.width
  rw [pushThen_of_lt _ _ (by omega), pushWord_of_lt _ (by omega), afterPayload_eq]
  constructor
  case header => exact fun _ => hheader
  case count => exact fun _ => ⟨hcount, hlow, hhigh⟩
  case footer => exact fun _ => hfooter
  all_goals
    simp only [putStaging_cntReg, putStaging_cfg, putStaging_payIdx, putStaging_phase, hphase]
    by_cases hend : s.payIdx + 1 = s.cntReg <;> simp [hend] <;> omega

theorem pushFtr_keeps_record {s : State} (hs : RecordInv s) (hphase : s.phase = .pushFtr) :
    RecordInv (pushThen s.ftrReg afterFooter s) := by
  have hroom := hs.room_footer hphase
  have hcount := hs.count (by simp [latched, hphase])
  have hfooter := hs.footer (by simp [latched, hphase])
  have hheader := hs.header (by simp [inFlight, hphase])
  rw [pushThen_of_lt _ _ (by omega), pushWord_of_lt _ (by omega)]
  constructor
  case header => exact fun _ => hheader
  case count => exact fun _ => hcount
  case footer => exact fun _ => hfooter
  case width => exact hs.width
  all_goals simp [afterFooter]

/-- FILL meets an empty bank, and the bank in flight is full: not a word of it moves (R91, R12). -/
theorem fillBank_keeps_flight {b : BankIdx} {hd f : Word} {p : List Word} {s t : State}
    (h : fillBank b hd p f s = .ok t) (hs : RecordInv s) (hempty : s.headerOf b = 0#32) (hflight : inFlight s = true) :
    ∀ o, o < 1024 → t.bankWord s.bankCursor o = s.bankWord s.bankCursor o := by
  obtain ⟨_, _, hother, _⟩ := fillBank_ok h
  obtain ⟨hheader, hfull⟩ := hs.header hflight
  have hne : s.bankCursor ≠ b := by
    rintro rfl
    exact hfull (hheader ▸ hempty)
  exact fun o ho => hother _ o hne ho

theorem effect_keeps_record {i : Instr} {s t : State} (hi : i.isStep = true) (hguard : enabled i s = true)
    (h : effect i s = .ok t) (hoff : s.cfg.footerOffset < 1024) (hs : RecordInv s) : RecordInv t := by
  have frame := effect_frame h
  cases i with
  | reset =>
    cases h
    have hpos : 0 < 2 ^ countWidth s.cfg := Nat.two_pow_pos _
    rw [resetBlock_eq]
    exact .of_idle (.inl rfl) ⟨Nat.mod_lt _ hpos, Nat.mod_lt _ hpos⟩
  | fill b hd p f =>
    have hempty : s.headerOf b = 0#32 := by simp_all [enabled]
    exact hs.of_frame hoff (effect_cfg h) (frame.mono (by simp [written])) (fillBank_keeps_flight h hs hempty)
  | lineRise | lineFall | setStart | idle =>
    cases h
    exact hs.of_frame hoff rfl (frame.mono (by simp [written])) fun _ _ _ => rfl
  | mboxRead | drain =>
    have hbank : unchanged .bank s t := frame .bank (by simp [written])
    exact hs.of_frame hoff (effect_cfg h) (frame.mono (by simp [written])) fun _ o _ => hbank _ o
  | scan => cases h; exact scanBank_keeps_record hs (by simp_all [enabled])
  | check => exact checkRecord_keeps_record h hs (by simpa [enabled] using hguard)
  | pushHdr => cases h; exact pushHdr_keeps_record hs (by simpa [enabled] using hguard)
  | pushPay =>
    obtain ⟨_, rfl⟩ := pushPayload_ok h
    exact pushPay_keeps_record hs (by simpa [enabled] using hguard) _
  | pushFtr => cases h; exact pushFtr_keeps_record hs (by simpa [enabled] using hguard)
  | clear => cases h; exact .of_idle (.inl rfl) hs.width
  | beginSpill =>
    cases h
    obtain ⟨_, _, hspill, _⟩ := beginSpill_spec s
    rw [hspill]
    exact .of_idle (.inl rfl) hs.width
  | headerOf | isFull | wordCount | readPayloadWord | readFooter | clearHeader | stagingReset | push | popBatch
  | occupied | readLevel | acknowledge | indicatorSet | indicatorClear | diagnosticWrite => cases hi

/-! ## Nothing unwritten is read -/

/-- A step that pushes nothing and does not enter BEAM_ON keeps every word awaiting drain written. -/
theorem WrittenInv.of_grows {s t : State} (hs : WrittenInv s) (hgrow : MemoryGrows s t) (hrd : s.rd ≤ t.rd)
    (hwr : t.wr ≤ s.wr) (hspill : t.spillState = .beamOn → s.spillState = .beamOn) : WrittenInv t where
  staged a hlow hhigh := hgrow.staging_written a (hs.staged a (by omega) (by omega))
  headers hbeam b := hgrow.bank_written _ (hs.headers (hspill hbeam) b)

theorem stageWord_keeps_written {s : State} (hs : WrittenInv s) (w : Word) : WrittenInv (stageWord w s) where
  staged a hlow hhigh := by
    simp only [stageWord] at hlow hhigh ⊢
    rw [Memory.get_put]
    split
    · rfl
    · exact hs.staged a hlow (by omega)
  headers := hs.headers

theorem WrittenInv.pushThen {f : State → State} {s : State} (hs : WrittenInv s) (w : Word)
    (hf : ∀ u, WrittenInv u → WrittenInv (f u)) : WrittenInv (pushThen w f s) := by
  obtain ⟨_, h⟩ | ⟨_, h⟩ := pushThen_cases w f s <;> rw [h]
  · exact hf _ (stageWord_keeps_written hs w)
  · exact ⟨hs.staged, hs.headers⟩

/-- BEGIN_SPILL empties the staging buffer and writes all sixteen headers (R133). -/
theorem beginSpill_written (s : State) : WrittenInv (beginSpill s) := by
  obtain ⟨_, _, h, _, _, _, hheaders⟩ := beginSpill_spec s
  rw [h]
  exact ⟨fun a _ h => absurd h (Nat.not_lt_zero a), fun _ => hheaders⟩

theorem drainBatch_keeps_written {s t : State} (h : drainBatch s = .ok t) (hc : CursorInv s) (hs : WrittenInv s) :
    WrittenInv t := by
  have hgrow := drainBatch_memoryGrows h
  obtain ⟨_, rfl⟩ | ⟨_, ht, _⟩ := drainBatch_ok h
  · exact hs.of_grows hgrow (Nat.le_refl _) (Nat.le_refl _) id
  · rw [ht] at hgrow ⊢
    refine hs.of_grows hgrow ?_ (Nat.le_refl _) fun hbeam => absurd hbeam (drained_ne_beamOn _ _)
    show s.rd ≤ (if s.spillState = .beamOn then 0 else s.rd) + drainSize s
    split
    · have := hc.beam_on ‹_›; omega
    · omega

theorem effect_keeps_writtenInv {i : Instr} {s t : State} (hi : i.isStep = true) (h : effect i s = .ok t)
    (hc : CursorInv s) (hs : WrittenInv s) : WrittenInv t := by
  have frame := effect_frame h
  have hgrow := effect_memoryGrows h
  cases i with
  | reset =>
    cases h
    rw [resetBlock_eq]
    exact ⟨fun a _ h => absurd h (Nat.not_lt_zero a), fun h => nomatch h⟩
  | pushHdr => cases h; exact hs.pushThen _ fun _ hu => ⟨hu.staged, hu.headers⟩
  | pushPay =>
    obtain ⟨_, rfl⟩ := pushPayload_ok h
    exact hs.pushThen _ fun _ hu => by rw [afterPayload_eq]; exact ⟨hu.staged, hu.headers⟩
  | pushFtr => cases h; exact hs.pushThen _ fun _ hu => ⟨hu.staged, hu.headers⟩
  | beginSpill => cases h; exact beginSpill_written s
  | drain => exact drainBatch_keeps_written h hc hs
  | fill | lineRise | lineFall | setStart | mboxRead | scan | check | clear | idle =>
    have hrd : t.rd = s.rd := frame .rd (by simp [written])
    have hwr : t.wr = s.wr := frame .wr (by simp [written])
    have hspill : t.spillState = s.spillState := frame .spillState (by simp [written])
    exact hs.of_grows hgrow hrd.ge hwr.le fun hbeam => hspill ▸ hbeam
  | headerOf | isFull | wordCount | readPayloadWord | readFooter | clearHeader | stagingReset | push | popBatch
  | occupied | readLevel | acknowledge | indicatorSet | indicatorClear | diagnosticWrite => cases hi

/-! ## Every enabled step is taken -/

/-- A FILL's payload stays below the bank's capacity (R91). -/
def payloadFits (i : Instr) : Prop := ∀ b h p f, i = .fill b h p f → p.length < 1024

theorem fillBank_of_lt (b : BankIdx) (hd f : Word) {p : List Word} {s : State} (hp : p.length < 1024)
    (hoff : s.cfg.footerOffset < 1024) : ∃ t, fillBank b hd p f s = .ok t := by
  obtain ⟨t, ht⟩ := bankWriteRun_of_le b p 1 s (by omega)
  exact ⟨putBank b 0 hd (putBank b s.cfg.footerOffset f t),
    by simp only [fillBank, ht, bankWrite_of_lt _ _ hoff, bankWrite_of_lt _ _ (show 0 < 1024 by omega)]⟩

theorem pushPayload_of_lt {s : State} (h : s.payIdx < 1024) : ∃ t, pushPayload s = .ok t := by
  simp [pushPayload, readPayloadWord, bankRead_of_lt s h]

theorem consumerRead_of_lt {k : Nat} {s : State} (h : k < s.cfg.mailboxCapacity) : ∃ t, consumerRead k s = .ok t := by
  simp [consumerRead, mboxRead, h]

/-- The words a DRAIN takes lie below the write cursor, so inside the staging buffer (R48, R99). -/
theorem drainBatch_of_cursors {s : State} (hM : 1 ≤ s.cfg.mailboxCapacity) (hs : CursorInv s) :
    ∃ t, drainBatch s = .ok t := by
  obtain ⟨hfirst, _⟩ := firstDrain_spec s
  have hsize : drainSize (firstDrain s) = drainSize s := by rw [hfirst]; rfl
  have hcfg : (firstDrain s).cfg = s.cfg := by rw [hfirst]
  have hrd : (firstDrain s).rd ≤ s.rd := by
    rw [hfirst]
    show (if s.spillState = .beamOn then 0 else s.rd) ≤ s.rd
    split <;> omega
  have hle : drainSize s ≤ s.occupied := Nat.min_le_right _ _
  obtain ⟨hcur, hcap, hocc, _⟩ := hs
  obtain ⟨t, ht⟩ := moveBatch_of_le (firstDrain s) (hcfg ▸ hM) (by rw [hsize, hcfg]; omega)
  cases hlevel : s.readLevel <;> simp [drainBatch, hlevel, ht]

/-- Under the invariant no access of an enabled step leaves its space (R47, R48, R49). -/
theorem effect_of_inv {i : Instr} {s : State} (hs : Inv s) (hi : i.isStep = true) (hguard : enabled i s = true)
    (hrange : operandInRange s.cfg i = true) (hfits : payloadFits i) : ∃ t, effect i s = .ok t := by
  have hoff : s.cfg.footerOffset < 1024 := hs.params.footer_high
  cases i with
  | fill b hd p f => exact fillBank_of_lt b hd f (hfits b hd p f rfl) hoff
  | mboxRead k => exact consumerRead_of_lt (by simpa [operandInRange] using hrange)
  | check => exact checkRecord_of_lt s hoff
  | pushPay =>
    have hphase : s.phase = .pushPay := by simpa [enabled] using hguard
    have hlast := (hs.sequencer.index hphase).2
    obtain ⟨_, _, hcount⟩ := hs.sequencer.count (by simp [latched, hphase])
    exact pushPayload_of_lt (Nat.lt_of_lt_of_le hlast hcount)
  | drain => exact drainBatch_of_cursors (Nat.le_of_succ_le hs.params.mailbox) hs.cursors
  | reset | lineRise | lineFall | setStart | scan | pushHdr | pushFtr | clear | beginSpill | idle => exact ⟨_, rfl⟩
  | headerOf | isFull | wordCount | readPayloadWord | readFooter | clearHeader | stagingReset | push | popBatch
  | occupied | readLevel | acknowledge | indicatorSet | indicatorClear | diagnosticWrite => cases hi

/-! ## The invariant -/

theorem effect_keeps_inv {i : Instr} {s t : State} (hs : Inv s) (hi : i.isStep = true) (hguard : enabled i s = true)
    (h : effect i s = .ok t) : Inv t := by
  obtain ⟨hcfg, hscript⟩ := Prod.mk.inj (effect_setup h)
  exact {
    params := hcfg ▸ hs.params
    memory := (effect_memoryGrows h).keeps hcfg hs.memory
    cursors := effect_keeps_cursors hi h hs.cursors
    sequencer := effect_keeps_record hi hguard h hs.params.footer_high hs.sequencer
    written := effect_keeps_writtenInv hi h hs.cursors hs.written
    steps := by
      have hsteps := hs.steps
      unfold scriptOfSteps at hsteps ⊢
      rwa [hcfg, hscript] }

/-- The model's own schedule and history do not touch the block: the invariant asks of them only that the script that
waits names steps. -/
theorem Inv.withSchedule {s : State} (hs : Inv s) {script : List Event} (tick : Nat) (wait : Option Nat)
    (history : List HistEntry) (hscript : script.all (stepEvent s.cfg) = true) :
    Inv { s with script := script, tick := tick, wait := wait, history := history } where
  params := hs.params
  memory := { hs.memory with }
  cursors := { hs.cursors with }
  sequencer := { hs.sequencer with }
  written := { hs.written with }
  steps := hscript

theorem Inv.record {s : State} (hs : Inv s) (e : Event) : Inv (record e s) :=
  hs.withSchedule s.tick s.wait (.step e :: s.history) hs.steps

/-- Under the invariant a step answers, and keeps it. -/
theorem exec_keeps_inv {i : Instr} {s : State} (hs : Inv s) (hi : i.isStep = true)
    (hrange : operandInRange s.cfg i = true) (hfits : payloadFits i) : ∃ t, exec i s = .next t ∧ Inv t := by
  rw [exec_of_step hi]
  cases hguard : enabled i s with
  | false => exact ⟨s, tryStep_of_disabled hguard, hs⟩
  | true =>
    obtain ⟨t, ht⟩ := effect_of_inv hs hi hguard hrange hfits
    exact ⟨_, tryStep_of_enabled hguard ht, (effect_keeps_inv hs hi hguard ht).record _⟩

/-! ## The instruction a step takes -/

theorem noOperand_ok {i j : Instr} {args : List Word} (h : noOperand i args = .ok j) : j = i := by
  unfold noOperand at h
  split at h
  · cases h; rfl
  · cases h

theorem oneOperand_ok {mk : Word → Except Reject Instr} {args : List Word} {j : Instr}
    (h : oneOperand mk args = .ok j) : ∃ w, mk w = .ok j := by
  unfold oneOperand at h
  split at h
  · exact ⟨_, h⟩
  · cases h

theorem bankOperand_ok {mk : BankIdx → Instr} {w : Word} {j : Instr} (h : bankOperand mk w = .ok j) :
    ∃ b, j = mk b := by
  unfold bankOperand at h
  split at h
  · cases h; exact ⟨_, rfl⟩
  · cases h

theorem indicatorOperand_ok {mk : Fin 2 → Instr} {w : Word} {j : Instr} (h : indicatorOperand mk w = .ok j) :
    ∃ k, j = mk k := by
  unfold indicatorOperand at h
  split at h
  · cases h; exact ⟨_, rfl⟩
  · cases h

theorem payloadOperands_ok {args : List Word} {j : Instr} (h : payloadOperands args = .ok j) :
    ∃ b k, j = .readPayloadWord b k := by
  unfold payloadOperands at h
  split at h
  · split at h
    · obtain ⟨b, rfl⟩ := bankOperand_ok h; exact ⟨_, _, rfl⟩
    · cases h
  · cases h

/-- The decoder reads a FILL's last word as its footer, so its payload is shorter than a bank (R76, R91). -/
theorem fillOperands_fits {b : BankIdx} {args : List Word} {j : Instr} (h : fillOperands b args = .ok j) :
    payloadFits j := by
  unfold fillOperands at h
  split at h
  · split at h
    · rename_i hd x xs hlen
      cases h
      intro _ _ p _ hfill
      cases hfill
      simp only [List.length_dropLast, Config.bankCapacity, List.length_cons] at hlen ⊢
      omega
    · cases h
  · cases h

theorem decode_fits {e : Event} {i : Instr} (h : decode e = .ok i) : payloadFits i := by
  unfold decode at h
  split at h
  · cases h
  · rename_i op _
    split at h
    · cases op
      case fill => exact fillOperands_fits h
      case readPayloadWord => obtain ⟨_, _, rfl⟩ := payloadOperands_ok h; exact fun _ _ _ _ h => nomatch h
      case headerOf | isFull | readFooter | clearHeader =>
        obtain ⟨_, hw⟩ := oneOperand_ok h
        obtain ⟨_, rfl⟩ := bankOperand_ok hw
        exact fun _ _ _ _ h => nomatch h
      case indicatorSet | indicatorClear =>
        obtain ⟨_, hw⟩ := oneOperand_ok h
        obtain ⟨_, rfl⟩ := indicatorOperand_ok hw
        exact fun _ _ _ _ h => nomatch h
      case mboxRead | wordCount | push | popBatch =>
        obtain ⟨_, hw⟩ := oneOperand_ok h
        cases hw
        exact fun _ _ _ _ h => nomatch h
      all_goals
        cases noOperand_ok h
        exact fun _ _ _ _ h => nomatch h
    · cases h

theorem isStep_of_isPolling {i : Instr} (h : i.isPolling = true) : i.isStep = true := by
  cases i <;> simp_all [Instr.isPolling, Instr.isStep]

/-- With no script left the next instruction is DRAIN or a polling-agent step (log 6). -/
theorem coreChoice_cases (s : State) : coreChoice s = .drain ∨ (coreChoice s).isPolling = true := by
  unfold coreChoice
  split
  · exact .inl rfl
  · exact .inr (pollingStep_isPolling s)

/-- A polling-agent step or DRAIN carries no operand. -/
theorem coreChoice_is_step (s : State) :
    (coreChoice s).isStep = true ∧ operandInRange s.cfg (coreChoice s) = true ∧ payloadFits (coreChoice s) := by
  generalize hi : coreChoice s = i
  obtain hdrain | hpoll := hi ▸ coreChoice_cases s
  · subst hdrain; exact ⟨rfl, rfl, fun _ _ _ _ h => nomatch h⟩
  · refine ⟨isStep_of_isPolling hpoll, ?_, fun _ _ _ _ h => by subst h; cases hpoll⟩
    cases i <;> simp_all [Instr.isPolling, operandInRange]

/-- Under the invariant the next instruction is a step with its operands in range, and it runs in a state that meets the
invariant too (R55, R83). -/
theorem fetch_of_inv {s : State} (hs : Inv s) : ∃ i t, fetch s = .ok (i, t) ∧ Inv t ∧ i.isStep = true ∧
    operandInRange t.cfg i = true ∧ payloadFits i := by
  cases hscript : s.script with
  | nil =>
    have hturn : Inv (turn s) := hs.withSchedule (s.tick + 1) (nextWait s) s.history hs.steps
    exact ⟨coreChoice s, turn s, by simp [fetch, hscript], hturn, coreChoice_is_step s⟩
  | cons e rest =>
    have hsteps : (e :: rest).all (stepEvent s.cfg) = true := hscript ▸ hs.steps
    obtain ⟨he, hrest⟩ := Bool.and_eq_true_iff.mp hsteps
    unfold stepEvent at he
    split at he
    · rename_i i hdecode
      obtain ⟨hi, hrange⟩ := Bool.and_eq_true_iff.mp he
      exact ⟨i, _, by simp only [fetch, hscript, hdecode], hs.withSchedule s.tick s.wait s.history hrest, hi, hrange,
        decode_fits hdecode⟩
    · cases he

/-- Settles O55: the next instruction is a step, its accesses stay inside their spaces, and each part of the invariant
is kept by its effect. -/
theorem everyStepKeepsInvariant : Obligations.EveryStepKeepsInvariant := by
  intro s hs
  obtain ⟨i, t, hfetch, ht, hi, hrange, hfits⟩ := fetch_of_inv hs
  obtain ⟨u, hexec, hu⟩ := exec_keeps_inv ht hi hrange hfits
  exact ⟨u, by simp [step, hfetch, hexec], hu⟩

/-! ## The invariant after reset -/

theorem inv_resetWith {cfg : Params} (hcfg : cfg.Valid) (line start : Bool) : Inv (State.resetWith cfg line start) where
  params := hcfg
  memory := ⟨rfl, rfl, rfl, rfl, rfl, rfl⟩
  cursors := .of_zero rfl rfl rfl
  sequencer := .of_idle (.inl rfl) ⟨Nat.two_pow_pos _, Nat.two_pow_pos _⟩
  written := ⟨fun a _ h => absurd h (Nat.not_lt_zero a), fun h => nomatch h⟩
  steps := rfl

theorem standard_valid : Config.standard.Valid := by
  constructor <;> decide

/-- Settles O54, part by part of the invariant. -/
theorem invariantAtReset : Obligations.InvariantAtReset :=
  ⟨fun _ line start hcfg => inv_resetWith hcfg line start, inv_resetWith standard_valid false false⟩

/-- Settles O56: RESET zeroes the cursors, and every step's effect keeps them in order. -/
theorem cursorInvariant : Obligations.CursorInvariant := by
  refine ⟨fun s t h => ?_, fun i s t hi hs h => ?_, fun s hs => ?_⟩
  · cases h
    rw [resetBlock_eq]
    exact .of_zero rfl rfl rfl
  · obtain ⟨_, _, rfl⟩ | ⟨_, _, u, hu, rfl⟩ | ⟨hprim, _⟩ := exec_next h
    · exact hs
    · exact (effect_keeps_cursors hi hu hs).record _
    · rw [hi] at hprim; cases hprim
  · obtain ⟨hle, _, hocc, hbeam⟩ := hs
    exact ⟨by omega, fun h => by have := hbeam h; omega⟩

/-- Settles O10: the fields of `State.resetWith`. -/
theorem stateAfterReset : Obligations.StateAfterReset :=
  ⟨fun cfg line start => ⟨State.resetWith cfg line start, by simp [State.resetWith, spillCode, phaseCode]⟩, rfl⟩

end Sys2Proof.Machine
end

section
/-! RESET, the edge latch, the fault flags and the write-permission matrix (R29, R32, R41, R176). -/

namespace Sys2Proof.Machine

/-- A step that answers had its guard false and did nothing, or had its effect and was entered in the history (R9). -/
theorem exec_step_next {i : Instr} (hi : i.isStep = true) {s t : State} (h : exec i s = .next t) :
    (enabled i s = false ∧ t = s) ∨ (enabled i s = true ∧ ∃ u, effect i s = .ok u ∧ t = record (encode i) u) := by
  obtain ⟨_, hguard, ht⟩ | ⟨_, hdone⟩ | ⟨hprim, _⟩ := exec_next h
  · exact .inl ⟨hguard, ht⟩
  · exact .inr hdone
  · rw [hi] at hprim; cases hprim

/-! ## RESET -/

/-- Settles O11: the fields of the reset block, and the dispatch in the phase it leaves. -/
theorem resetFromAnyState : Obligations.ResetFromAnyState := by
  refine ⟨rfl, fun s => ⟨record (encode .reset) (resetBlock s), rfl, ?_⟩⟩
  have hpos : 0 < 2 ^ countWidth s.cfg := Nat.two_pow_pos _
  rw [resetBlock_eq]
  exact ⟨rfl, rfl, rfl, rfl, rfl, rfl, rfl, rfl, rfl, rfl, rfl, rfl, Nat.mod_lt _ hpos, Nat.mod_lt _ hpos, rfl, rfl,
    fun _ _ => rfl, fun _ => rfl, fun _ => rfl, rfl, rfl⟩

/-! ## The edge latch -/

/-- The three instructions that clear the latch (R29). -/
def clearsLatch (i : Instr) : Prop := i = .drain ∨ i = .reset ∨ i = .acknowledge

/-- What an instruction may do to the latch: an edge sets it, the three clear it, every other leaves it (R29). -/
def LatchMove (i : Instr) (s t : State) : Prop :=
  (t.edgeLatch = true ∧ (i = .lineRise ∨ (i = .lineFall ∧ s.cfg.edgeBoth = true)) ∧ ¬ clearsLatch i) ∨
  (t.edgeLatch = false ∧ clearsLatch i) ∨ (t.edgeLatch = s.edgeLatch ∧ ¬ clearsLatch i)

theorem effect_edgeLatch {i : Instr} {s t : State} (h : effect i s = .ok t) : LatchMove i s t := by
  cases i with
  | lineRise => cases h; exact .inl ⟨rfl, .inl rfl, by simp [clearsLatch]⟩
  | lineFall =>
    cases h
    cases hboth : s.cfg.edgeBoth with
    | true => exact .inl ⟨by simp [lowerLine, hboth], .inr ⟨rfl, hboth⟩, by simp [clearsLatch]⟩
    | false => exact .inr (.inr ⟨by simp [lowerLine, hboth], by simp [clearsLatch]⟩)
  | reset => cases h; exact .inr (.inl ⟨rfl, .inr (.inl rfl)⟩)
  | acknowledge => cases h; exact .inr (.inl ⟨rfl, .inr (.inr rfl)⟩)
  | drain =>
    refine .inr (.inl ⟨?_, .inl rfl⟩)
    obtain ⟨_, rfl⟩ | ⟨_, ht, _⟩ := drainBatch_ok h
    · rfl
    · rw [ht]
  | indicatorSet k => cases h; rw [indicatorSet_eq]; exact .inr (.inr ⟨rfl, by simp [clearsLatch]⟩)
  | indicatorClear k => cases h; rw [indicatorClear_eq]; exact .inr (.inr ⟨rfl, by simp [clearsLatch]⟩)
  | _ => exact .inr (.inr ⟨effect_frame h .edgeLatch (by simp [written]), by simp [clearsLatch]⟩)

/-- A DRAIN that is not enabled meets a latch that is clear already. -/
theorem exec_edgeLatch {i : Instr} {s t : State} (h : exec i s = .next t) : LatchMove i s t := by
  obtain ⟨hi, hguard, rfl⟩ | ⟨_, _, u, hu, rfl⟩ | ⟨_, hu⟩ := exec_next h
  · by_cases hclear : clearsLatch i
    · obtain rfl | rfl | rfl := hclear
      · exact .inr (.inl ⟨hguard, .inl rfl⟩)
      · cases hguard
      · cases hi
    · exact .inr (.inr ⟨rfl, hclear⟩)
  · have hlatch : LatchMove i s u := effect_edgeLatch hu
    exact hlatch
  · exact effect_edgeLatch hu

/-- Settles O36: what each instruction does to the latch. -/
theorem edgeLatchWriters : Obligations.EdgeLatchWriters := by
  intro i s t h
  have hguard : enabled .drain s = s.edgeLatch := rfl
  obtain ⟨ht, hset, hnot⟩ | ⟨ht, hclear⟩ | ⟨ht, hnot⟩ := exec_edgeLatch h
  · exact ⟨fun _ _ => hset, fun _ h0 => absurd h0 (by simp [ht]), fun hc => absurd hc hnot, hguard⟩
  · exact ⟨fun _ h1 => absurd h1 (by simp [ht]), fun _ _ => hclear, fun _ => ht, hguard⟩
  · exact ⟨fun h0 h1 => absurd h1 (by simp [ht, h0]), fun h1 h0 => absurd h0 (by simp [ht, h1]),
      fun hc => absurd hc hnot, hguard⟩

/-! ## The fault flags -/

/-- A condition's flag as an element of the state (R32). -/
def Condition.elem (c : Condition) : Elem :=
  match c with
  | .stagingOverflow => .fltStagingOvf
  | .bankCount => .fltBankCount
  | .idMismatch => .fltIdMismatch

theorem flag_of_unchanged {c : Condition} {s t : State} (h : unchanged c.elem s t) : t.flag c = s.flag c := by
  cases c <;> exact h

theorem flt_getLsbD (s : State) (c : Condition) : s.flt.getLsbD c.code = s.flag c := by
  unfold State.flt
  generalize hovf : s.fltStagingOvf = ovf, hcount : s.fltBankCount = count, hid : s.fltIdMismatch = id
  cases c
  case stagingOverflow =>
    show _ = s.fltStagingOvf
    rw [hovf]
    cases ovf <;> cases count <;> cases id <;> rfl
  case bankCount =>
    show _ = s.fltBankCount
    rw [hcount]
    cases ovf <;> cases count <;> cases id <;> rfl
  case idMismatch =>
    show _ = s.fltIdMismatch
    rw [hid]
    cases ovf <;> cases count <;> cases id <;> rfl

/-- The instructions that push a word, and so may take STAGING_OVERFLOW (R98). -/
def pushes (i : Instr) : Prop := i = .pushHdr ∨ i = .pushPay ∨ i = .pushFtr ∨ ∃ w, i = .push w

/-- A push leaves the flags, or sets the overflow flag (R98, R154). -/
theorem pushThen_flag {f : State → State} (hf : ∀ u c, (f u).flag c = u.flag c) (w : Word) (s : State)
    (c : Condition) :
    (pushThen w f s).flag c = s.flag c ∨ (c = .stagingOverflow ∧ (pushThen w f s).flag c = true) := by
  obtain ⟨_, h⟩ | ⟨_, h⟩ := pushThen_cases w f s <;> rw [h]
  · exact .inl (hf _ c)
  · cases c with
    | stagingOverflow => exact .inr ⟨rfl, rfl⟩
    | bankCount | idMismatch => exact .inl rfl

theorem afterPayload_flag (u : State) (c : Condition) : (afterPayload u).flag c = u.flag c := by
  rw [afterPayload_eq]
  rfl

theorem checkRecord_flag {s t : State} (h : checkRecord s = .ok t) (c : Condition) :
    t.flag c = s.flag c ∨ t.flag c = true := by
  have hor : ∀ old cause : Bool, (old || cause) = old ∨ (old || cause) = true := by decide
  obtain ⟨_, _, _, _, _, rfl⟩ := checkRecord_ok h
  cases c <;> exact hor _ _

/-- What an instruction may do to a flag: RESET clears it, CHECK in its phase may set it and an overflowing push the
overflow flag, every other leaves it (R32, R153). -/
def FlagMove (i : Instr) (c : Condition) (s t : State) : Prop :=
  t.flag c = s.flag c ∨ (i = .reset ∧ t.flag c = false) ∨
  (t.flag c = true ∧ ((i = .check ∧ s.phase = .check) ∨ (c = .stagingOverflow ∧ pushes i)))

theorem pushThen_flagMove {i : Instr} {f : State → State} (hi : pushes i) (hf : ∀ u c, (f u).flag c = u.flag c)
    (w : Word) (s : State) (c : Condition) : FlagMove i c s (pushThen w f s) := by
  obtain hkept | ⟨hc, hset⟩ := pushThen_flag hf w s c
  · exact .inl hkept
  · exact .inr (.inr ⟨hset, .inr ⟨hc, hi⟩⟩)

theorem effect_flagMove {i : Instr} {s t : State} (h : effect i s = .ok t) (hphase : i = .check → s.phase = .check)
    (c : Condition) : FlagMove i c s t := by
  cases i with
  | reset => cases h; rw [resetBlock_eq]; exact .inr (.inl ⟨rfl, by cases c <;> rfl⟩)
  | check =>
    obtain hkept | hset := checkRecord_flag h c
    · exact .inl hkept
    · exact .inr (.inr ⟨hset, .inl ⟨rfl, hphase rfl⟩⟩)
  | pushHdr => cases h; exact pushThen_flagMove (f := afterHeader) (.inl rfl) (fun _ _ => rfl) _ s c
  | pushPay => obtain ⟨_, rfl⟩ := pushPayload_ok h; exact pushThen_flagMove (.inr (.inl rfl)) afterPayload_flag _ s c
  | pushFtr => cases h; exact pushThen_flagMove (f := afterFooter) (.inr (.inr (.inl rfl))) (fun _ _ => rfl) _ s c
  | push w =>
    cases h
    rw [pushWord_eq_pushThen]
    exact pushThen_flagMove (.inr (.inr (.inr ⟨w, rfl⟩))) (fun _ _ => rfl) w s c
  | indicatorSet k => cases h; rw [indicatorSet_eq]; exact .inl rfl
  | indicatorClear k => cases h; rw [indicatorClear_eq]; exact .inl rfl
  | _ => exact .inl (flag_of_unchanged (effect_frame h _ (by cases c <;> simp [Condition.elem, written])))

theorem exec_flagMove {i : Instr} {s t : State} (h : exec i s = .next t) (c : Condition) : FlagMove i c s t := by
  obtain ⟨_, _, rfl⟩ | ⟨_, hguard, u, hu, rfl⟩ | ⟨hprim, hu⟩ := exec_next h
  · exact .inl rfl
  · have hflag : FlagMove i c s u := effect_flagMove hu (by rintro rfl; simpa [enabled] using hguard) c
    exact hflag
  · exact effect_flagMove hu (by rintro rfl; cases hprim) c

/-- Settles O51: what each instruction does to a flag. -/
theorem faultFlagsSticky : Obligations.FaultFlagsSticky := by
  refine ⟨flt_getLsbD, fun i s t c h => ?_⟩
  obtain hkept | ⟨hreset, hclear⟩ | ⟨hset, hcause⟩ := exec_flagMove h c
  · exact ⟨fun h1 h0 => absurd h0 (by simp [hkept, h1]), fun h0 h1 => absurd h1 (by simp [hkept, h0])⟩
  · exact ⟨fun _ _ => hreset, fun _ h1 => absurd h1 (by simp [hclear])⟩
  · exact ⟨fun _ h0 => absurd h0 (by simp [hset]), fun _ _ => hcause⟩

/-! ## The write-permission matrix -/

/-- Elements no polling-agent step writes (R35, R41). -/
theorem polling_never_writes {i : Instr} (hi : i.isPolling = true) :
    .mailbox ∉ written i ∧ .edgeLatch ∉ written i ∧ .lineLevel ∉ written i ∧ .startEn ∉ written i := by
  cases i <;> simp_all [Instr.isPolling, written]

/-- Elements of the polling agent's that only BEGIN_SPILL writes. -/
theorem polling_writes_but_beginSpill {i : Instr} (hi : i.isPolling = true) (hne : i ≠ .beginSpill) :
    .spillState ∉ written i ∧ .rd ∉ written i ∧ .ind0 ∉ written i ∧ .ind1 ∉ written i := by
  cases i <;> simp_all [Instr.isPolling, written]

/-- Only CLEAR and BEGIN_SPILL write the banks. -/
theorem polling_writes_bank {i : Instr} (hi : i.isPolling = true) (hclear : i ≠ .clear) (hne : i ≠ .beginSpill) :
    .bank ∉ written i := by
  cases i <;> simp_all [Instr.isPolling, written]

/-- Of the staging buffer a polling-agent step writes by pushing, but for BEGIN_SPILL's cursor reset. -/
theorem polling_writes_staging {i : Instr} (hi : i.isPolling = true) (hpush : ¬ pushes i) :
    .staging ∉ written i ∧ (i ≠ .beginSpill → .wr ∉ written i) := by
  cases i <;> simp_all [Instr.isPolling, written, pushes]

/-- BEGIN_SPILL's effect, or nothing (R133). -/
theorem exec_beginSpill_next {s t : State} (h : exec .beginSpill s = .next t) :
    t = s ∨ (s.spillState = .ready ∧ t = record (encode .beginSpill) (beginSpill s)) := by
  obtain ⟨_, ht⟩ | ⟨hguard, u, hu, rfl⟩ := exec_step_next rfl h
  · exact .inl ht
  · cases hu
    refine .inr ⟨?_, rfl⟩
    simp only [enabled, Bool.and_eq_true, decide_eq_true_eq] at hguard
    exact hguard.1.1

/-- A word of a bank after BEGIN_SPILL: the headers are zero, every other word stands (R133). -/
theorem beginSpill_bankWord (s : State) (b : BankIdx) {o : Nat} (ho : o < 1024) :
    (beginSpill s).bankWord b o = if o = 0 then 0#32 else s.bankWord b o := by
  obtain ⟨_, _, h, hword, _⟩ := beginSpill_spec s
  rw [h]
  exact hword b o ho

theorem pushThen_occupied_le {f : State → State} (hf : ∀ u, (f u).occupied = u.occupied) (w : Word) (s : State) :
    s.occupied ≤ (pushThen w f s).occupied := by
  obtain ⟨_, h⟩ | ⟨_, h⟩ := pushThen_cases w f s
  · rw [h, hf]; exact Nat.le_succ _
  · rw [h]

theorem effect_occupied_le {i : Instr} {s t : State} (hi : i.isPolling = true) (hne : i ≠ .beginSpill)
    (h : effect i s = .ok t) : s.occupied ≤ t.occupied := by
  by_cases hpush : pushes i
  · obtain rfl | rfl | rfl | ⟨w, rfl⟩ := hpush
    · cases h; exact pushThen_occupied_le (f := afterHeader) (fun _ => rfl) _ s
    · obtain ⟨_, rfl⟩ := pushPayload_ok h
      exact pushThen_occupied_le (fun u => by rw [afterPayload_eq]) _ s
    · cases h; exact pushThen_occupied_le (f := afterFooter) (fun _ => rfl) _ s
    · cases hi
  · have hkept : .occupied ∉ written i := by cases i <;> simp_all [Instr.isPolling, written, pushes]
    exact (effect_frame h .occupied hkept).ge

/-- A polling-agent step but BEGIN_SPILL only adds words to the buffer (R41, R98). -/
theorem exec_occupied_le {i : Instr} {s t : State} (hi : i.isPolling = true) (hne : i ≠ .beginSpill)
    (h : exec i s = .next t) : s.occupied ≤ t.occupied := by
  obtain ⟨_, rfl⟩ | ⟨_, u, hu, rfl⟩ := exec_step_next (isStep_of_isPolling hi) h
  · exact Nat.le_refl _
  · have hle : s.occupied ≤ u.occupied := effect_occupied_le hi hne hu
    exact hle

/-- Of the banks the polling agent writes headers only, and only to clear them (R111, R133). -/
theorem polling_bankWord {i : Instr} {s t : State} (hi : i.isPolling = true) (h : exec i s = .next t) (b : BankIdx)
    {o : Nat} (ho : o < 1024) :
    t.bankWord b o = s.bankWord b o ∨ (o = 0 ∧ t.bankWord b o = 0#32 ∧ (i = .clear ∨ i = .beginSpill)) := by
  by_cases hclear : i = .clear
  · subst hclear
    obtain ⟨_, rfl⟩ | ⟨_, u, hu, rfl⟩ := exec_step_next rfl h
    · exact .inl rfl
    · cases hu
      have hword : (freeBank s).bankWord b o = if b = s.bankCursor ∧ o = 0 then 0#32 else s.bankWord b o :=
        clearHeader_bankWord s ho
      by_cases hb : b = s.bankCursor ∧ o = 0
      · exact .inr ⟨hb.2, hword.trans (if_pos hb), .inl rfl⟩
      · exact .inl (hword.trans (if_neg hb))
  · by_cases hspill : i = .beginSpill
    · subst hspill
      obtain rfl | ⟨_, rfl⟩ := exec_beginSpill_next h
      · exact .inl rfl
      · have hword := beginSpill_bankWord s b ho
        by_cases hb : o = 0
        · exact .inr ⟨hb, hword.trans (if_pos hb), .inr rfl⟩
        · exact .inl (hword.trans (if_neg hb))
    · exact .inl (exec_frame h .bank (polling_writes_bank hi hclear hspill) b o)

theorem polling_flag {i : Instr} {s t : State} (hi : i.isPolling = true) (h : exec i s = .next t) (c : Condition)
    (hset : s.flag c = true) : t.flag c = true := by
  obtain hkept | ⟨rfl, _⟩ | ⟨hflag, _⟩ := exec_flagMove h c
  · exact hkept.trans hset
  · cases hi
  · exact hflag

theorem polling_spillState {i : Instr} {s t : State} (hi : i.isPolling = true) (h : exec i s = .next t) :
    t.spillState = s.spillState ∨ (i = .beginSpill ∧ s.spillState = .ready ∧ t.spillState = .beamOn) := by
  by_cases hspill : i = .beginSpill
  · subst hspill
    obtain rfl | ⟨hready, rfl⟩ := exec_beginSpill_next h
    · exact .inl rfl
    · exact .inr ⟨rfl, hready, setSpill_spillState _ _⟩
  · exact .inl (exec_frame h .spillState (polling_writes_but_beginSpill hi hspill).1)

theorem beginSpill_cursors {s t : State} (h : exec .beginSpill s = .next t) :
    t = s ∨ (t.occupied = 0 ∧ t.wr = 0) := by
  obtain hsame | ⟨_, rfl⟩ := exec_beginSpill_next h
  · exact .inl hsame
  · obtain ⟨_, _, hspill, _⟩ := beginSpill_spec s
    rw [hspill]
    exact .inr ⟨rfl, rfl⟩

theorem polling_staging {i : Instr} {s t : State} (hi : i.isPolling = true) (hpush : ¬ pushes i)
    (h : exec i s = .next t) : unchanged .staging s t ∧ (t.wr = s.wr ∨ (i = .beginSpill ∧ t.wr = 0)) := by
  obtain ⟨hstaging, hwr⟩ := polling_writes_staging hi hpush
  refine ⟨exec_frame h .staging hstaging, ?_⟩
  by_cases hspill : i = .beginSpill
  · subst hspill
    obtain rfl | ⟨_, hzero⟩ := beginSpill_cursors h
    · exact .inl rfl
    · exact .inr ⟨rfl, hzero⟩
  · exact .inl (exec_frame h .wr (hwr hspill))

/-- DRAIN drives the spill state forward only, and takes words out (R121, R123, R124). -/
theorem drain_permissions {s t : State} (h : exec .drain s = .next t) :
    (s.spillState = .ready → t.spillState = .ready) ∧ (t.spillState = .beamOn → s.spillState = .beamOn) ∧
    t.occupied ≤ s.occupied := by
  obtain ⟨_, rfl⟩ | ⟨_, u, hu, rfl⟩ := exec_step_next rfl h
  · exact ⟨id, id, Nat.le_refl _⟩
  · obtain ⟨_, rfl⟩ | ⟨_, hdrain, _⟩ := drainBatch_ok hu
    · exact ⟨id, id, Nat.le_refl _⟩
    · rw [hdrain]
      refine ⟨fun hready => ?_, fun hbeam => absurd hbeam (drained_ne_beamOn _ _), Nat.sub_le _ _⟩
      simp [hready]

/-- The environment writes banks, inputs and the latch, but for RESET (R41). -/
theorem environment_writes {i : Instr} (hi : i.isStep = true) (hreset : i ≠ .reset) (hpoll : i.isPolling = false)
    (hdrain : i ≠ .drain) : written i ⊆ [.bank, .edgeLatch, .lineLevel, .startEn] ∧ ¬ clearsLatch i := by
  cases i <;> simp_all [Instr.isStep, Instr.isPolling, written, clearsLatch]

/-- The environment writes a bank only where its header was zero, and leaves the header non-zero (R91, R92). -/
theorem environment_bankWord {i : Instr} {s t : State} (hi : i.isStep = true) (hreset : i ≠ .reset)
    (hpoll : i.isPolling = false) (hdrain : i ≠ .drain) (h : exec i s = .next t) (b : BankIdx) :
    (∀ o, o < 1024 → t.bankWord b o = s.bankWord b o) ∨ (s.bankWord b 0 = 0#32 ∧ t.bankWord b 0 ≠ 0#32) := by
  by_cases hfill : ∃ c hd p f, i = .fill c hd p f
  · obtain ⟨c, hd, p, f, rfl⟩ := hfill
    obtain ⟨_, rfl⟩ | ⟨hguard, u, hu, rfl⟩ := exec_step_next rfl h
    · exact .inl fun _ _ => rfl
    · obtain ⟨hempty, hfull⟩ : s.headerOf c = 0#32 ∧ hd ≠ 0#32 := by
        simpa only [enabled, Bool.and_eq_true, decide_eq_true_eq] using hguard
      obtain ⟨_, hheader, hother, _⟩ := fillBank_ok hu
      by_cases hb : b = c
      · subst hb
        exact .inr ⟨hempty, fun hzero => hfull (hheader.symm.trans hzero)⟩
      · exact .inl fun o ho => hother b o hb ho
  · have hbank : .bank ∉ written i := by cases i <;> simp_all [Instr.isStep, Instr.isPolling, written]
    exact .inl fun o _ => exec_frame h .bank hbank b o

/-- Settles O52, agent by agent. -/
theorem writePermissions : Obligations.WritePermissions := by
  intro i s t _ hi hreset h
  refine ⟨fun hpoll => ?_, ?_, fun hpoll hdrain => ?_⟩
  · obtain ⟨hmailbox, hlatch, hlevel, hstart⟩ := polling_never_writes hpoll
    refine ⟨polling_spillState hpoll h, fun hne => ?_, ?_, fun b => ?_, fun b o hlow ho => ?_, fun hhdr hpay hftr => ?_,
      exec_frame h _ hmailbox, exec_frame h _ hlatch, exec_frame h _ hlevel, exec_frame h _ hstart,
      polling_flag hpoll h⟩
    · obtain ⟨_, hrd, hind0, hind1⟩ := polling_writes_but_beginSpill hpoll hne
      exact ⟨exec_frame h _ hrd, exec_occupied_le hpoll hne h, exec_frame h _ hind0, exec_frame h _ hind1⟩
    · rintro rfl
      exact (beginSpill_cursors h).imp_right And.left
    · exact (polling_bankWord hpoll h b (by omega)).imp_right And.right
    · obtain hkept | ⟨rfl, _⟩ := polling_bankWord hpoll h b ho
      · exact hkept
      · omega
    · refine polling_staging hpoll ?_ h
      rintro (hp | hp | hp | ⟨w, rfl⟩)
      · exact hhdr hp
      · exact hpay hp
      · exact hftr hp
      · cases hi
  · rintro rfl
    obtain ⟨hready, hbeam, hocc⟩ := drain_permissions h
    obtain ⟨_, _, hclears, _⟩ := edgeLatchWriters .drain s t h
    have hclear : t.edgeLatch = false := hclears (.inl rfl)
    exact ⟨hready, hbeam, hocc, fun hset => absurd hset (by simp [hclear]), (exec_frame h).mono (by simp [written])⟩
  · obtain ⟨hsub, hnot⟩ := environment_writes hi hreset hpoll hdrain
    have hbank := environment_bankWord hi hreset hpoll hdrain h
    refine ⟨fun hset => ?_, fun b hfull => ?_, fun b => ?_, (exec_frame h).mono hsub⟩
    · obtain ⟨hlatch, _⟩ | ⟨_, hclear⟩ | ⟨hkept, _⟩ := exec_edgeLatch h
      · exact hlatch
      · exact absurd hclear hnot
      · exact hkept.trans hset
    · exact (hbank b).resolve_right fun hempty => hfull hempty.1
    · exact (hbank b).imp_left fun hkept => hkept 0 (by omega)

end Sys2Proof.Machine
end

section
/-! No rule reads the indicators, the fault flags, the returned value or the history (R31, R32, R33). -/

namespace Sys2Proof.Machine

/-! ## Operations that read no output -/

/-- What the state becomes, outputs aside, does not depend on the outputs. -/
def Blind (f : State → State) : Prop := ∀ s, hideOutputs (f (hideOutputs s)) = hideOutputs (f s)

/-- The same of an operation whose accesses could leave their space; neither does whether they do. -/
def BlindTry (f : State → Except Fault State) : Prop :=
  ∀ s, (f (hideOutputs s)).map hideOutputs = (f s).map hideOutputs

theorem Blind.ok {f : State → State} (hf : Blind f) : BlindTry (fun s => .ok (f s)) :=
  fun s => congrArg Except.ok (hf s)

/-- An operation that writes no output commutes with hiding them. -/
theorem BlindTry.of_comm {f : State → Except Fault State} (hf : ∀ s, f (hideOutputs s) = (f s).map hideOutputs) :
    BlindTry f := by
  intro s
  rw [hf]
  cases f s <;> rfl

theorem BlindTry.after {f : State → State} {g : State → Except Fault State} (hg : BlindTry g) (hf : Blind f) :
    BlindTry (fun s => g (f s)) := by
  intro s
  rw [← hg (f (hideOutputs s)), hf, hg]

theorem BlindTry.map {f : State → Except Fault State} {g : State → State} (hf : BlindTry f) (hg : Blind g) :
    BlindTry (fun s => (f s).map g) := by
  have key : ∀ r : Except Fault State, (r.map g).map hideOutputs = ((r.map hideOutputs).map g).map hideOutputs := by
    intro r
    cases r with
    | ok u => exact congrArg Except.ok (hg u).symm
    | error e => rfl
  intro s
  rw [key, hf, ← key]

theorem pushThen_blind {f : State → State} (hf : Blind f) (w : Word) : Blind (pushThen w f) := by
  intro s
  rcases Nat.lt_or_ge s.wr s.cfg.stagingCapacity with h | h
  · rw [pushThen_of_lt w f h, pushThen_of_lt w f (s := hideOutputs s) h, pushWord_of_lt w h,
      pushWord_of_lt w (s := hideOutputs s) h]
    exact hf (stageWord w s)
  · rw [pushThen_of_ge w f h, pushThen_of_ge w f (s := hideOutputs s) h]
    rfl

theorem afterPayload_blind : Blind afterPayload := by
  intro s
  rw [afterPayload_eq, afterPayload_eq]
  rfl

theorem pushPayload_blind : BlindTry pushPayload := by
  intro s
  have hread : readPayloadWord (hideOutputs s).bankCursor (hideOutputs s).payIdx (hideOutputs s) =
      readPayloadWord s.bankCursor s.payIdx s := rfl
  unfold pushPayload
  rw [hread]
  cases readPayloadWord s.bankCursor s.payIdx s with
  | ok w => exact congrArg Except.ok (pushThen_blind afterPayload_blind w s)
  | error e => rfl

theorem resetBlock_blind : Blind resetBlock := by
  intro s
  rw [resetBlock_eq, resetBlock_eq]
  rfl

theorem scanBank_blind : Blind scanBank := by
  intro s
  rw [scanBank_eq, scanBank_eq]
  rfl

theorem checkRecord_blind : BlindTry checkRecord := by
  intro s
  have hread : readFooter (hideOutputs s).bankCursor (hideOutputs s) = readFooter s.bankCursor s := rfl
  unfold checkRecord
  rw [hread]
  cases readFooter s.bankCursor s with
  | ok f => simp only [checkFit_spec, checkId_spec]; rfl
  | error e => rfl

theorem clearHeaders_hide (n : Nat) (s : State) :
    clearHeaders n (hideOutputs s) = hideOutputs (clearHeaders n s) := by
  induction n with
  | zero => rfl
  | succ n ih => rw [clearHeaders, ih]; rfl

theorem hideOutputs_setSpill (x : SpillState) (s : State) :
    hideOutputs (setSpill x s) = { hideOutputs s with spillState := x } := by
  rw [setSpill_eq]
  rfl

theorem beginSpill_blind : Blind beginSpill := by
  intro s
  unfold beginSpill
  rw [clearHeaders_hide]
  generalize clearHeaders Config.numBanks s = u
  rw [hideOutputs_setSpill, hideOutputs_setSpill]
  rfl

theorem bankWrite_hide (b : BankIdx) (o : Nat) (v : Word) (s : State) :
    bankWrite b o v (hideOutputs s) = (bankWrite b o v s).map hideOutputs := by
  unfold bankWrite
  split <;> rfl

theorem bankWriteRun_hide (b : BankIdx) (ws : List Word) : ∀ (o : Nat) (s : State),
    bankWriteRun b o ws (hideOutputs s) = (bankWriteRun b o ws s).map hideOutputs := by
  induction ws with
  | nil => exact fun _ _ => rfl
  | cons w rest ih =>
    intro o s
    simp only [bankWriteRun, bankWrite_hide]
    cases bankWrite b o w s with
    | ok t => exact ih (o + 1) t
    | error e => rfl

theorem fillBank_hide (b : BankIdx) (hd f : Word) (p : List Word) (s : State) :
    fillBank b hd p f (hideOutputs s) = (fillBank b hd p f s).map hideOutputs := by
  have hoff : (hideOutputs s).cfg.footerOffset = s.cfg.footerOffset := rfl
  simp only [fillBank, bankWriteRun_hide, hoff]
  cases bankWriteRun b 1 p s with
  | error e => rfl
  | ok t =>
    simp only [Except.map, bankWrite_hide]
    cases bankWrite b s.cfg.footerOffset f t with
    | error e => rfl
    | ok u => exact bankWrite_hide b 0 hd u

theorem mboxWrite_hide (i : Nat) (v : Word) (s : State) :
    mboxWrite i v (hideOutputs s) = (mboxWrite i v s).map hideOutputs := by
  have hM : (hideOutputs s).cfg.mailboxCapacity = s.cfg.mailboxCapacity := rfl
  unfold mboxWrite
  rw [hM]
  split <;> rfl

theorem mboxWriteRun_hide (ws : List Word) : ∀ (i : Nat) (s : State),
    mboxWriteRun i ws (hideOutputs s) = (mboxWriteRun i ws s).map hideOutputs := by
  induction ws with
  | nil => exact fun _ _ => rfl
  | cons w rest ih =>
    intro i s
    simp only [mboxWriteRun, mboxWrite_hide]
    cases mboxWrite i w s with
    | ok t => exact ih (i + 1) t
    | error e => rfl

theorem stagReadRun_hide (n : Nat) : ∀ (a : Nat) (s : State), stagReadRun a n (hideOutputs s) = stagReadRun a n s := by
  induction n with
  | zero => exact fun _ _ => rfl
  | succ n ih =>
    intro a s
    have hread : stagRead a (hideOutputs s) = stagRead a s := rfl
    simp only [stagReadRun, hread, ih]

theorem popBatch_hide (m : Nat) (s : State) :
    popBatch m (hideOutputs s) = (popBatch m s).map fun (words, t) => (words, hideOutputs t) := by
  have hread : stagReadRun (hideOutputs s).rd (batchSize m (hideOutputs s)) (hideOutputs s) =
      stagReadRun s.rd (batchSize m s) s := stagReadRun_hide _ _ s
  unfold popBatch
  rw [hread]
  cases stagReadRun s.rd (batchSize m s) s <;> rfl

theorem moveBatch_hide (s : State) : moveBatch (hideOutputs s) = (moveBatch s).map hideOutputs := by
  have hM : (hideOutputs s).cfg.mailboxCapacity = s.cfg.mailboxCapacity := rfl
  have hsize (m : Nat) : batchSize m (hideOutputs s) = batchSize m s := rfl
  simp only [moveBatch, hM, hsize, mboxWrite_hide]
  cases mboxWrite 0 (BitVec.ofNat 32 (batchSize (s.cfg.mailboxCapacity - 1) s)) s with
  | error e => rfl
  | ok t =>
    simp only [Except.map, popBatch_hide]
    cases popBatch (s.cfg.mailboxCapacity - 1) t with
    | error e => rfl
    | ok r => exact mboxWriteRun_hide r.1 1 r.2

theorem firstDrain_blind : Blind firstDrain := by
  intro s
  obtain ⟨h, hspill⟩ := firstDrain_spec s
  obtain ⟨h', hspill'⟩ := firstDrain_spec (hideOutputs s)
  rw [h, h', hspill, hspill']
  rfl

theorem endOfDrain_blind : Blind endOfDrain := by
  intro s
  rw [endOfDrain_spec, endOfDrain_spec s]
  rfl

theorem finishDrain_blind : Blind (fun s => acknowledge (endOfDrain s)) := by
  intro s
  exact congrArg acknowledge (endOfDrain_blind s)

/-- DRAIN with the level high, as one chain of operations (R121). -/
theorem drainBatch_of_high {s : State} (h : s.lineLevel = true) :
    drainBatch s = (moveBatch (firstDrain s)).map fun t => acknowledge (endOfDrain t) := by
  have hlevel : s.readLevel = true := h
  simp only [drainBatch, hlevel, if_true]
  cases moveBatch (firstDrain s) <;> rfl

theorem drainBatch_of_low {s : State} (h : s.lineLevel = false) : drainBatch s = .ok (acknowledge s) := by
  simp [drainBatch, State.readLevel, h]

theorem drainBatch_blind : BlindTry drainBatch := by
  intro s
  cases h : s.lineLevel with
  | false => rw [drainBatch_of_low h, drainBatch_of_low (s := hideOutputs s) h]; rfl
  | true =>
    rw [drainBatch_of_high h, drainBatch_of_high (s := hideOutputs s) h]
    exact ((BlindTry.of_comm moveBatch_hide).after firstDrain_blind).map finishDrain_blind s

theorem consumerRead_blind (k : Nat) : BlindTry (consumerRead k) := by
  intro s
  have hread : mboxRead k (hideOutputs s) = mboxRead k s := rfl
  unfold consumerRead
  rw [hread]
  cases mboxRead k s <;> rfl

/-! ## Instructions -/

theorem effect_blind (i : Instr) : BlindTry (effect i) := by
  cases i with
  | reset => exact resetBlock_blind.ok
  | fill b hd p f => exact .of_comm (fillBank_hide b hd f p)
  | mboxRead k => exact consumerRead_blind k
  | scan => exact scanBank_blind.ok
  | check => exact checkRecord_blind
  | pushHdr => exact fun s => congrArg Except.ok (pushThen_blind (f := afterHeader) (fun _ => rfl) s.hdrReg s)
  | pushPay => exact pushPayload_blind
  | pushFtr => exact fun s => congrArg Except.ok (pushThen_blind (f := afterFooter) (fun _ => rfl) s.ftrReg s)
  | beginSpill => exact beginSpill_blind.ok
  | drain => exact drainBatch_blind
  | readPayloadWord b k =>
    intro s
    have hread : readPayloadWord b k (hideOutputs s) = readPayloadWord b k s := rfl
    simp only [effect, hread]
    cases readPayloadWord b k s <;> rfl
  | readFooter b =>
    intro s
    have hread : readFooter b (hideOutputs s) = readFooter b s := rfl
    simp only [effect, hread]
    cases readFooter b s <;> rfl
  | push w =>
    intro s
    simp only [effect, pushWord_eq_pushThen]
    exact congrArg Except.ok (pushThen_blind (f := fun t => t) (fun _ => rfl) w s)
  | popBatch m =>
    intro s
    simp only [effect, popBatch_hide]
    cases popBatch m s <;> rfl
  | indicatorSet k => exact Blind.ok fun s => by rw [indicatorSet_eq, indicatorSet_eq]; rfl
  | indicatorClear k => exact Blind.ok fun s => by rw [indicatorClear_eq, indicatorClear_eq]; rfl
  | lineRise | lineFall | setStart | clear | idle | headerOf | isFull | wordCount | clearHeader | stagingReset
  | occupied | readLevel | acknowledge | diagnosticWrite => exact fun _ => rfl

/-- What an effect answers, as an outcome. -/
def outcomeOf (r : Except Fault State) : Host.Outcome State Fault Refusal :=
  match r with
  | .ok t => .next t
  | .error e => .fault e

/-- A primitive is its effect (R78). -/
theorem exec_of_primitive {i : Instr} (hi : i.isStep = false) (s : State) : exec i s = outcomeOf (effect i s) := by
  cases i
  case readPayloadWord b k =>
    show answerWord (readPayloadWord b k s) s = _
    simp only [effect]
    cases readPayloadWord b k s <;> rfl
  case readFooter b =>
    show answerWord (readFooter b s) s = _
    simp only [effect]
    cases readFooter b s <;> rfl
  case popBatch m =>
    show execPopBatch m s = _
    simp only [effect, execPopBatch]
    cases popBatch m s <;> rfl
  case headerOf | isFull | wordCount | clearHeader | stagingReset | push | occupied | readLevel | acknowledge
      | indicatorSet | indicatorClear | diagnosticWrite => rfl
  all_goals cases hi

theorem hideOutcome_outcomeOf (r : Except Fault State) :
    hideOutcome (outcomeOf r) = outcomeOf (r.map hideOutputs) := by
  cases r <;> rfl

theorem hideOutcome_tryStep (i : Instr) (f : State → Except Fault State) (s : State) :
    hideOutcome (tryStep i f s) =
      if enabled i s then outcomeOf ((f s).map hideOutputs) else .next (hideOutputs s) := by
  unfold tryStep
  split
  · cases f s <;> rfl
  · rfl

theorem enabled_hide (i : Instr) (s : State) : enabled i (hideOutputs s) = enabled i s :=
  enabled_congr i rfl rfl rfl rfl rfl rfl

theorem exec_hide (i : Instr) (s : State) : hideOutcome (exec i (hideOutputs s)) = hideOutcome (exec i s) := by
  cases hi : i.isStep with
  | true => simp only [exec_of_step hi, hideOutcome_tryStep, enabled_hide, effect_blind i s]; rfl
  | false => simp only [exec_of_primitive hi, hideOutcome_outcomeOf, effect_blind i s]

/-- The choice of the next instruction reads no output, nor does the script or the turn it runs in. -/
theorem fetch_hide (s : State) : fetch (hideOutputs s) = (fetch s).map fun (i, t) => (i, hideOutputs t) := by
  have hscript : (hideOutputs s).script = s.script := rfl
  unfold fetch
  rw [hscript]
  cases s.script with
  | nil => rfl
  | cons e rest => cases hd : decode e <;> simp only [hd] <;> rfl

theorem step_hide (s : State) : hideOutcome (step (hideOutputs s)) = hideOutcome (step s) := by
  unfold step
  rw [fetch_hide]
  cases fetch s with
  | ok r => exact exec_hide r.1 r.2
  | error e => rfl

/-- Settles O53: an instruction, the choice of the polling step and a step each do to a state what they do to the state
with its outputs hidden. -/
theorem outputsNeverRead : Obligations.OutputsNeverRead := by
  intro s s' h
  refine ⟨fun i => ?_, ?_, ?_⟩
  · rw [← exec_hide i s, h, exec_hide]
  · calc pollingStep s
      _ = pollingStep (hideOutputs s) := rfl
      _ = pollingStep (hideOutputs s') := by rw [h]
      _ = pollingStep s' := rfl
  · rw [← step_hide s, h, step_hide]

end Sys2Proof.Machine
end

section
/-! The memories under the instructions and under single writes (R46 to R49, R53, R56), from what every effect does to
them (`effect_memoryGrows`) and the words of a space after a write. -/

namespace Sys2Proof.Machine

/-- Settles O58: every effect keeps each memory inside its space, and the history entry of a step touches none. -/
theorem memoriesStayCanonical : Obligations.MemoriesStayCanonical := by
  intro i s t hs h
  obtain ⟨_, _, rfl⟩ | ⟨_, _, u, hu, rfl⟩ | ⟨_, ht⟩ := exec_next h
  · exact hs
  · have hmem : MemoryInv u := (effect_memoryGrows hu).keeps (effect_cfg hu) hs
    exact { hmem with }
  · exact (effect_memoryGrows ht).keeps (effect_cfg ht) hs

theorem bankRead_after_bankWrite {b : BankIdx} {o : Nat} (v : Word) (s : State) (ho : o < 1024) :
    ∃ t, bankWrite b o v s = .ok t ∧ bankRead b o t = .ok v ∧
      ∀ (c : BankIdx) (p : Nat), p < 1024 → c ≠ b ∨ p ≠ o → bankRead c p t = bankRead c p s := by
  refine ⟨putBank b o v s, bankWrite_of_lt v s ho, ?_, fun c p hp hne => ?_⟩
  · rw [bankRead_of_lt _ ho, putBank_bankWord s v ho ho, if_pos ⟨rfl, rfl⟩]
  · rw [bankRead_of_lt _ hp, bankRead_of_lt _ hp, putBank_bankWord s v ho hp,
      if_neg fun hsame => hne.elim (· hsame.1) (· hsame.2)]

theorem stagRead_after_stagWrite {a : Nat} (v : Word) (s : State) (ha : a < s.cfg.stagingCapacity) :
    ∃ t, stagWrite a v s = .ok t ∧ stagRead a t = .ok v ∧ ∀ c, c ≠ a → stagRead c t = stagRead c s := by
  refine ⟨putStaging a v s, if_pos ha, ?_, fun c hne => ?_⟩
  · rw [stagRead, putStaging_cfg, if_pos ha, putStaging_stagingWord, if_pos rfl]
  · rw [stagRead, stagRead, putStaging_cfg, putStaging_stagingWord, if_neg hne]

theorem mboxRead_after_mboxWrite {k : Nat} (v : Word) (s : State) (hk : k < s.cfg.mailboxCapacity) :
    ∃ t, mboxWrite k v s = .ok t ∧ mboxRead k t = .ok v ∧ ∀ c, c ≠ k → mboxRead c t = mboxRead c s := by
  refine ⟨putMailbox k v s, if_pos hk, ?_, fun c hne => ?_⟩
  · rw [mboxRead, putMailbox_cfg, if_pos hk, putMailbox_mailboxWord, if_pos rfl]
  · rw [mboxRead, mboxRead, putMailbox_cfg, putMailbox_mailboxWord, if_neg hne]

/-- Settles O59, space by space. -/
theorem readAfterWrite : Obligations.ReadAfterWrite := by
  refine fun s v => ⟨fun b c o p ho hp => ?_, fun a c ha => ?_, fun k c hk => ?_⟩
  · obtain ⟨t, hwrite, hread, hother⟩ := bankRead_after_bankWrite (b := b) v s ho
    exact ⟨t, hwrite, hread, hother c p hp⟩
  · obtain ⟨t, hwrite, hread, hother⟩ := stagRead_after_stagWrite v s ha
    exact ⟨t, hwrite, hread, hother c⟩
  · obtain ⟨t, hwrite, hread, hother⟩ := mboxRead_after_mboxWrite v s hk
    exact ⟨t, hwrite, hread, hother c⟩

end Sys2Proof.Machine
end

section
/-! Which step is taken (R55, R60, R79, R83): the script is run down event by event, and then the two core agents move,
DRAIN waiting a number of polling steps that is counted down. -/

namespace Sys2Proof.Machine

/-- Settles O6: the script's first event is what `fetch` reads. -/
theorem stepRunsScriptedEvent : Obligations.StepRunsScriptedEvent :=
  fun _ _ _ _ hscript hdecode => step_of_scripted hscript hdecode

/-! ## The script runs out -/

theorem exec_script {i : Instr} {s t : State} (h : exec i s = .next t) : t.script = s.script :=
  (Prod.mk.inj (exec_setup h)).2

theorem step_script {s t : State} (h : step s = .next t) : t.script = s.script.tail := by
  cases hscript : s.script with
  | nil =>
    rw [step_of_unscripted hscript] at h
    rw [exec_script h, turn_script, hscript, List.tail_nil]
  | cons e rest =>
    cases hdecode : decode e with
    | ok i =>
      rw [step_of_scripted hscript hdecode] at h
      exact exec_script h
    | error r => simp [step, fetch, hscript, hdecode] at h

theorem IsRun.script_eq {σ : Nat → State} (hrun : IsRun σ) (n : Nat) : (σ n).script = (σ 0).script.drop n := by
  induction n with
  | zero => rfl
  | succ n ih => rw [step_script (hrun n), ih, List.tail_drop]

/-- A script is finite, so from some step on a run has none left. -/
theorem IsRun.script_runs_out {σ : Nat → State} (hrun : IsRun σ) : ∃ n₀, ∀ n, n₀ ≤ n → (σ n).script = [] :=
  ⟨(σ 0).script.length, fun n hn => by rw [hrun.script_eq, List.drop_of_length_le hn]⟩

/-! ## The core agents' own moves -/

/-- The guard of the step the dispatch table gives holds (R79). -/
theorem enabled_pollingStep (s : State) : enabled (pollingStep s) s = true := by
  cases hphase : s.phase <;> cases hspill : s.spillState <;> cases hstart : s.startEn <;>
    simp [pollingStep, enabled, hphase, hspill, hstart]

/-- With no script left the polling agent moves, or DRAIN where an edge is latched (log 6). -/
theorem coreChoice_eq (s : State) : coreChoice s = pollingStep s ∨ (s.edgeLatch = true ∧ coreChoice s = .drain) := by
  cases hlatch : s.edgeLatch with
  | false => exact .inl (coreChoice_of_clear hlatch)
  | true =>
    obtain ⟨_, hdrain⟩ | ⟨_, _, hpoll, _⟩ := coreChoice_of_latched hlatch
    · exact .inr ⟨rfl, hdrain⟩
    · exact .inl hpoll

theorem enabled_coreChoice (s : State) : enabled (coreChoice s) s = true := by
  obtain hpoll | ⟨hlatch, hdrain⟩ := coreChoice_eq s
  · rw [hpoll]; exact enabled_pollingStep s
  · rw [hdrain]; exact hlatch

/-- With no script left the core agents' choice fires: its guard always holds. -/
theorem fires_of_unscripted {s : State} (h : s.script = []) : fires s = some (coreChoice s) := by
  simp [fires, fetch, h, enabled_coreChoice]

theorem step_of_clear {s : State} (hscript : s.script = []) (hlatch : s.edgeLatch = false) :
    step s = exec (pollingStep s) (turn s) := by
  rw [step_of_unscripted hscript, coreChoice_of_clear hlatch]

/-! ## DRAIN's wait -/

theorem pushThen_wait {f : State → State} (hf : ∀ u, (f u).wait = u.wait) (w : Word) (s : State) :
    (pushThen w f s).wait = s.wait := by
  obtain ⟨_, h⟩ | ⟨_, h⟩ := pushThen_cases w f s
  · rw [h, hf]; rfl
  · rw [h]

theorem polling_effect_wait {i : Instr} {s t : State} (hi : i.isPolling = true) (h : effect i s = .ok t) :
    t.wait = s.wait := by
  cases i
  case scan => cases h; rw [scanBank_eq]
  case check => obtain ⟨_, _, _, _, _, rfl⟩ := checkRecord_ok h; rfl
  case pushHdr => cases h; exact pushThen_wait (f := afterHeader) (fun _ => rfl) _ s
  case pushPay =>
    obtain ⟨_, rfl⟩ := pushPayload_ok h
    exact pushThen_wait (fun u => by rw [afterPayload_eq]) _ s
  case pushFtr => cases h; exact pushThen_wait (f := afterFooter) (fun _ => rfl) _ s
  case beginSpill =>
    cases h
    obtain ⟨_, _, hspill, _⟩ := beginSpill_spec s
    rw [hspill]
  case clear | idle => cases h; rfl
  all_goals cases hi

/-- A polling-agent step leaves DRAIN's wait as its turn set it (log 6). -/
theorem polling_wait {i : Instr} {s t : State} (hi : i.isPolling = true) (h : exec i s = .next t) :
    t.wait = s.wait := by
  obtain ⟨_, rfl⟩ | ⟨_, u, hu, rfl⟩ := exec_step_next (isStep_of_isPolling hi) h
  · rfl
  · have hwait : u.wait = s.wait := polling_effect_wait hi hu
    exact hwait

/-- An unscripted step with an edge latched drains it, or brings DRAIN one polling step nearer. -/
theorem step_drains_or_waits {s t : State} (hscript : s.script = []) (hlatch : s.edgeLatch = true)
    (h : step s = .next t) : coreChoice s = .drain ∨ patience s = patience t + 1 := by
  obtain ⟨_, hdrain⟩ | ⟨k, hk, hpoll, hwait⟩ := coreChoice_of_latched hlatch
  · exact .inl hdrain
  · rw [step_of_unscripted hscript, hpoll] at h
    have ht : t.wait = some k := (polling_wait (pollingStep_isPolling s) h).trans hwait
    have hleft : patience t = k := by rw [patience, ht]; rfl
    exact .inr (by rw [hk, hleft])

/-! ## Weak fairness (R60) -/

section
variable {σ : Nat → State} (hrun : IsRun σ)
include hrun

/-- Induction on the polling steps that DRAIN still waits for. -/
theorem IsRun.drain_comes {n : Nat} (hscript : ∀ m, n ≤ m → (σ m).script = [])
    (hlatch : ∀ m, n ≤ m → (σ m).edgeLatch = true) : ∃ m, n ≤ m ∧ coreChoice (σ m) = .drain := by
  induction hk : patience (σ n) generalizing n with
  | zero =>
    obtain ⟨_, hdrain⟩ | ⟨_, hpos, _⟩ := coreChoice_of_latched (hlatch n (Nat.le_refl n))
    · exact ⟨n, Nat.le_refl n, hdrain⟩
    · omega
  | succ k ih =>
    obtain hdrain | hnearer :=
      step_drains_or_waits (hscript n (Nat.le_refl n)) (hlatch n (Nat.le_refl n)) (hrun n)
    · exact ⟨n, Nat.le_refl n, hdrain⟩
    · obtain ⟨m, hm, hdrain⟩ := ih (n := n + 1) (fun m hm => hscript m (by omega)) (fun m hm => hlatch m (by omega))
        (by omega)
      exact ⟨m, by omega, hdrain⟩

/-- A DRAIN clears the latch, so of two unscripted steps in a row one is the polling agent's. -/
theorem IsRun.polling_comes {n : Nat} (hscript : ∀ m, n ≤ m → (σ m).script = []) :
    ∃ m, n ≤ m ∧ (coreChoice (σ m)).isPolling = true := by
  obtain hdrain | hpoll := coreChoice_cases (σ n)
  · have hexec : exec .drain (turn (σ n)) = .next (σ (n + 1)) := by
      rw [← hdrain, ← step_of_unscripted (hscript n (Nat.le_refl n))]; exact hrun n
    obtain ⟨_, _, hclears, _⟩ := edgeLatchWriters .drain _ _ hexec
    exact ⟨n + 1, Nat.le_succ n, by rw [coreChoice_of_clear (hclears (.inl rfl))]; exact pollingStep_isPolling _⟩
  · exact ⟨n, Nat.le_refl n, hpoll⟩

/-- Every run is weakly fair: once the script has run out, DRAIN's wait is finite and DRAIN does not go twice in a row. -/
theorem IsRun.weaklyFair : WeaklyFair σ (fun n => fires (σ n)) := by
  obtain ⟨n₀, hscript⟩ := hrun.script_runs_out
  refine ⟨fun n henabled => ?_, fun n => ?_⟩
  · obtain ⟨m, hm, hdrain⟩ := hrun.drain_comes (n := max n n₀) (fun m hm => hscript m (by omega))
      (fun m hm => henabled m (by omega))
    exact ⟨m, by omega, by rw [fires_of_unscripted (hscript m (by omega)), hdrain]⟩
  · obtain ⟨m, hm, hpoll⟩ := hrun.polling_comes (n := max n n₀) (fun m hm => hscript m (by omega))
    exact ⟨m, _, by omega, fires_of_unscripted (hscript m (by omega)), hpoll⟩

/-- With the script gone and no edge latched, BEAM_OFF is left by nothing: only the polling agent moves, and it leaves
the latch and BEAM_OFF alone (R79). -/
theorem IsRun.stays_parked (hscript : (σ 0).script = []) (hspill : (σ 0).spillState = .beamOff)
    (hlatch : (σ 0).edgeLatch = false) (n : Nat) :
    (σ n).spillState = .beamOff ∧ (σ n).edgeLatch = false := by
  induction n with
  | zero => exact ⟨hspill, hlatch⟩
  | succ n ih =>
    obtain ⟨hoff, hclear⟩ := ih
    have hnone : (σ n).script = [] := by rw [hrun.script_eq, hscript, List.drop_nil]
    have hexec : exec (pollingStep (σ n)) (turn (σ n)) = .next (σ (n + 1)) := by
      rw [← step_of_clear hnone hclear]; exact hrun n
    have hpoll := pollingStep_isPolling (σ n)
    obtain ⟨_, hnolatch, _⟩ := polling_never_writes hpoll
    have hkept : (σ (n + 1)).edgeLatch = (turn (σ n)).edgeLatch := exec_frame hexec .edgeLatch hnolatch
    refine ⟨?_, hkept.trans hclear⟩
    obtain hsame | ⟨_, hready, _⟩ := polling_spillState hpoll hexec
    · exact hsame.trans hoff
    · rw [turn_spillState, hoff] at hready; cases hready

end

/-- A step that is neither DRAIN nor RESET leaves a latched edge latched (R29, R150). -/
theorem latch_kept {i : Instr} {s t : State} (hi : i.isStep = true) (hne : ¬ (i = .drain ∨ i = .reset))
    (h : exec i s = .next t) (hlatch : s.edgeLatch = true) : t.edgeLatch = true := by
  obtain ⟨hset, _⟩ | ⟨_, hclears⟩ | ⟨hkept, _⟩ := exec_edgeLatch h
  · exact hset
  · obtain hdrain | hreset | rfl := hclears
    · exact absurd (.inl hdrain) hne
    · exact absurd (.inr hreset) hne
    · cases hi
  · exact hkept.trans hlatch

/-- In a weakly fair execution a latched edge is drained in the end, unless a RESET drops it: were it never, it would stay
latched, DRAIN enabled, and DRAIN would fire. -/
theorem IsExecution.latched_edge_drained {σ : Nat → State} {ι : Nat → Instr} (hexec : IsExecution σ ι)
    (hfair : WeaklyFair σ (fun n => some (ι n))) {n : Nat} (hlatch : (σ n).edgeLatch = true) :
    ∃ m, n ≤ m ∧ (ι m = .drain ∨ ι m = .reset) := by
  by_contra hnever
  have hstays : ∀ m, n ≤ m → (σ m).edgeLatch = true := by
    intro m hm
    induction m, hm using Nat.le_induction with
    | base => exact hlatch
    | succ m hm ih =>
      obtain ⟨hi, _, hnext⟩ := hexec m
      exact latch_kept hi (fun hdone => hnever ⟨m, hm, hdone⟩) hnext ih
  obtain ⟨m, hm, hdrain⟩ := hfair.handler n hstays
  exact hnever ⟨m, hm, .inl (Option.some.inj hdrain)⟩

/-- Settles O7: the core agents' choice, the fairness of every run and of every weakly fair execution, and the run parked
in BEAM_OFF. -/
theorem unscriptedStepIsCoreAgent : Obligations.UnscriptedStepIsCoreAgent := by
  refine ⟨fun s hscript => ⟨nextWait s, fun hlatch => step_of_clear hscript hlatch, ?_⟩,
    fun σ hrun => hrun.weaklyFair, fun σ ι hexec hfair n hlatch => hexec.latched_edge_drained hfair hlatch,
    fun σ hrun hscript hspill hlatch n => (hrun.stays_parked hscript hspill hlatch n).1⟩
  rw [step_of_unscripted hscript]
  obtain hpoll | ⟨hlatch, hdrain⟩ := coreChoice_eq s
  · exact .inl (by rw [hpoll]; rfl)
  · exact .inr ⟨hlatch, by rw [hdrain]; rfl⟩

end Sys2Proof.Machine
end

section
/-! Event words and their operands (R76 to R78, R81). An event word is its operation's code with the argument bits below it
(`eventWordOf`), and each reader of operand words accepts exactly what the encoder writes; so the decoder accepts exactly the
encodings of the instructions whose operands fit beside their event word (`decode_eq_ok_iff_encode`). -/

namespace Sys2Proof

/-! ## The three fields of an event word -/

/-- `cls` of an operation (R77, R78). -/
def Op.cls : Op → BitVec 2
  | .reset | .fill | .lineRise | .lineFall | .setStart | .mboxRead => 0b00#2
  | .scan | .check | .pushHdr | .pushPay | .pushFtr | .clear | .beginSpill | .idle => 0b01#2
  | .drain => 0b10#2
  | .headerOf | .isFull | .wordCount | .readPayloadWord | .readFooter | .clearHeader | .stagingReset | .push | .popBatch
  | .occupied | .readLevel | .acknowledge | .indicatorSet | .indicatorClear | .diagnosticWrite => 0b11#2

/-- `code` of an operation (R77, R78). -/
def Op.code : Op → BitVec 4
  | .reset | .scan | .drain | .headerOf => 0#4
  | .fill | .check | .isFull => 1#4
  | .lineRise | .pushHdr | .wordCount => 2#4
  | .lineFall | .pushPay | .readPayloadWord => 3#4
  | .setStart | .pushFtr | .readFooter => 4#4
  | .mboxRead | .clear | .clearHeader => 5#4
  | .beginSpill | .stagingReset => 6#4
  | .idle | .push => 7#4
  | .popBatch => 8#4
  | .occupied => 9#4
  | .readLevel => 10#4
  | .acknowledge => 11#4
  | .indicatorSet => 12#4
  | .indicatorClear => 13#4
  | .diagnosticWrite => 14#4

/-- The event word of an operation and its argument bits: `cls`, `code`, `arg` (R76). -/
def eventWordOf (op : Op) (arg : BitVec 10) : EventWord := op.cls ++ op.code ++ arg

theorem opOf_cls_code (op : Op) : opOf op.cls op.code = some op := by cases op <;> rfl

/-- A listed code is the code of the operation it names (R77, R78). -/
theorem opOf_eq_some {cls : BitVec 2} {code : BitVec 4} {op : Op} (h : opOf cls code = some op) :
    cls = op.cls ∧ code = op.code := by
  have table : ∀ (cls : BitVec 2) (code : BitVec 4),
      (opOf cls code).all (fun op => cls == op.cls && code == op.code) = true := by decide
  simpa [h] using table cls code

theorem eventCls_eventWordOf (op : Op) (arg : BitVec 10) : eventCls (eventWordOf op arg) = op.cls :=
  (BitVec.extractLsb'_append_eq_of_le (by omega)).trans BitVec.extractLsb'_append_eq_left

theorem eventCode_eventWordOf (op : Op) (arg : BitVec 10) : eventCode (eventWordOf op arg) = op.code :=
  (BitVec.extractLsb'_append_eq_of_le (by omega)).trans BitVec.extractLsb'_append_eq_right

theorem eventArg_eventWordOf (op : Op) (arg : BitVec 10) : eventArg (eventWordOf op arg) = arg :=
  BitVec.extractLsb'_append_eq_right

theorem opOf_eventWordOf (op : Op) (arg : BitVec 10) :
    opOf (eventCls (eventWordOf op arg)) (eventCode (eventWordOf op arg)) = some op := by
  rw [eventCls_eventWordOf, eventCode_eventWordOf, opOf_cls_code]

/-- An event word is its three fields (R76). -/
theorem append_fields (w : EventWord) : eventCls w ++ eventCode w ++ eventArg w = w := by
  unfold eventCls eventCode eventArg
  rw [BitVec.extractLsb'_append_extractLsb'_eq_extractLsb' (by omega),
    BitVec.extractLsb'_append_extractLsb'_eq_extractLsb' (by omega), BitVec.extractLsb'_eq_self]

/-- The decoder's fields: it accepts an operation's event word without a forbidden argument bit, and operand words that its
reader accepts (R76, R81). -/
theorem decode_eq_ok_iff_fields {e : Event} {i : Instr} : decode e = .ok i ↔
    ∃ op arg, e.word = eventWordOf op arg ∧ arg &&& ~~~ argMask op = 0#10 ∧ withOperands op arg e.args = .ok i := by
  constructor
  · intro h
    unfold decode at h
    split at h
    · cases h
    · rename_i op hop
      split at h
      · rename_i harg
        obtain ⟨hcls, hcode⟩ := opOf_eq_some hop
        exact ⟨op, eventArg e.word, by rw [eventWordOf, ← hcls, ← hcode, append_fields], harg, h⟩
      · cases h
  · rintro ⟨op, arg, hword, harg, hread⟩
    simp only [decode, hword, opOf_eventWordOf, eventArg_eventWordOf, harg, if_true, hread]

/-! ## Operand words: each reader accepts what the encoder writes (log 9) -/

theorem noOperand_eq_ok {i j : Instr} {args : List Word} : noOperand i args = .ok j ↔ args = [] ∧ i = j := by
  cases args <;> simp [noOperand]

theorem oneOperand_eq_ok {mk : Word → Except Reject Instr} {args : List Word} {j : Instr} :
    oneOperand mk args = .ok j ↔ ∃ w, args = [w] ∧ mk w = .ok j := by
  unfold oneOperand
  split <;> simp_all

theorem bankWordOf_toNat (b : BankIdx) : (bankWordOf b).toNat = b.toNat := by
  have : b.toNat < 16 := b.isLt
  simp only [bankWordOf, BitVec.toNat_setWidth]
  omega

theorem bankOperand_eq_ok {mk : BankIdx → Instr} {w : Word} {j : Instr} :
    bankOperand mk w = .ok j ↔ ∃ b, w = bankWordOf b ∧ mk b = j := by
  unfold bankOperand
  constructor
  · intro h
    split at h
    · rename_i hw
      cases h
      refine ⟨w.setWidth 4, BitVec.eq_of_toNat_eq ?_, rfl⟩
      simp only [Config.numBanks] at hw
      rw [bankWordOf_toNat, BitVec.toNat_setWidth, Nat.mod_eq_of_lt hw]
    · cases h
  · rintro ⟨b, rfl, rfl⟩
    have hb : (bankWordOf b).toNat < Config.numBanks := by rw [bankWordOf_toNat]; exact b.isLt
    have hread : (bankWordOf b).setWidth 4 = b := by revert b; decide
    rw [if_pos hb, hread]

theorem indicatorOperand_eq_ok {mk : Fin 2 → Instr} {w : Word} {j : Instr} :
    indicatorOperand mk w = .ok j ↔ ∃ k : Fin 2, w = BitVec.ofNat 32 k.val ∧ mk k = j := by
  unfold indicatorOperand
  constructor
  · intro h
    split at h
    · rename_i hw
      cases h
      exact ⟨⟨w.toNat, hw⟩, by simp, rfl⟩
    · cases h
  · rintro ⟨k, rfl, rfl⟩
    match k with
    | 0 => rfl
    | 1 => rfl

/-- A number is read from the word that carries it (log 9). -/
theorem numberOperand_eq_ok {mk : Nat → Instr} {args : List Word} {j : Instr} :
    oneOperand (fun w => .ok (mk w.toNat)) args = .ok j ↔
      ∃ n, args = [BitVec.ofNat 32 n] ∧ fitsWord n = true ∧ mk n = j := by
  simp only [oneOperand_eq_ok, Except.ok.injEq, fitsWord, decide_eq_true_eq]
  constructor
  · rintro ⟨w, rfl, rfl⟩
    exact ⟨w.toNat, by simp, w.isLt, rfl⟩
  · rintro ⟨n, rfl, hn, rfl⟩
    exact ⟨_, rfl, by rw [BitVec.toNat_ofNat, Nat.mod_eq_of_lt hn]⟩

/-- FILL's last word is its footer, the words between it and the header its payload (log 9). -/
theorem fillOperands_eq_ok {b : BankIdx} {args : List Word} {j : Instr} :
    fillOperands b args = .ok j ↔ ∃ h p f, args = h :: (p ++ [f]) ∧ p.length < 1024 ∧ .fill b h p f = j := by
  constructor
  · intro hread
    unfold fillOperands at hread
    split at hread
    · rename_i h x xs
      split at hread
      · rename_i hlen
        cases hread
        refine ⟨h, (x :: xs).dropLast, (x :: xs).getLastD 0, ?_, ?_, rfl⟩
        · rw [List.getLastD_cons, ← List.getLast_eq_getLastD (by simp), List.dropLast_append_getLast]
        · simp only [List.length_dropLast, Config.bankCapacity, List.length_cons] at hlen ⊢
          omega
      · cases hread
    · cases hread
  · rintro ⟨h, p, f, rfl, hp, rfl⟩
    have hlen : (p ++ [f]).length ≤ Config.bankCapacity := by
      simp only [List.length_append, List.length_cons, List.length_nil, Config.bankCapacity]
      omega
    obtain ⟨x, xs, hcons⟩ : ∃ x xs, p ++ [f] = x :: xs := List.exists_cons_of_ne_nil (by simp)
    have hread : fillOperands b (h :: (p ++ [f])) =
        .ok (.fill b h (p ++ [f]).dropLast ((p ++ [f]).getLastD 0)) := by
      rw [hcons] at hlen ⊢
      exact if_pos hlen
    rw [hread]
    simp

theorem payloadOperands_eq_ok {args : List Word} {j : Instr} :
    payloadOperands args = .ok j ↔
      ∃ b k, args = [bankWordOf b, BitVec.ofNat 32 k] ∧ k < 1024 ∧ .readPayloadWord b k = j := by
  constructor
  · intro hread
    unfold payloadOperands at hread
    split at hread
    · rename_i k
      split at hread
      · rename_i hk
        obtain ⟨b, rfl, rfl⟩ := bankOperand_eq_ok.mp hread
        exact ⟨b, k.toNat, by simp, hk, rfl⟩
      · cases hread
    · cases hread
  · rintro ⟨b, k, rfl, hk, rfl⟩
    have hword : (BitVec.ofNat 32 k).toNat = k := by rw [BitVec.toNat_ofNat]; omega
    simp only [payloadOperands, hword, Config.bankCapacity, hk, if_true]
    exact bankOperand_eq_ok.mpr ⟨b, rfl, rfl⟩

/-! ## The encoder, field by field -/

/-- The operation of an instruction: its row of the opcode table (R77, R78). -/
def Instr.op : Instr → Op
  | .reset => .reset
  | .fill _ _ _ _ => .fill
  | .lineRise => .lineRise
  | .lineFall => .lineFall
  | .setStart _ => .setStart
  | .mboxRead _ => .mboxRead
  | .scan => .scan
  | .check => .check
  | .pushHdr => .pushHdr
  | .pushPay => .pushPay
  | .pushFtr => .pushFtr
  | .clear => .clear
  | .beginSpill => .beginSpill
  | .idle => .idle
  | .drain => .drain
  | .headerOf _ => .headerOf
  | .isFull _ => .isFull
  | .wordCount _ => .wordCount
  | .readPayloadWord _ _ => .readPayloadWord
  | .readFooter _ => .readFooter
  | .clearHeader _ => .clearHeader
  | .stagingReset => .stagingReset
  | .push _ => .push
  | .popBatch _ => .popBatch
  | .occupied => .occupied
  | .readLevel => .readLevel
  | .acknowledge => .acknowledge
  | .indicatorSet _ => .indicatorSet
  | .indicatorClear _ => .indicatorClear
  | .diagnosticWrite => .diagnosticWrite

/-- The argument bits of an instruction: FILL's bank and SET_START's level travel in the event word (R76). -/
def Instr.arg : Instr → BitVec 10
  | .fill b _ _ _ => b.setWidth 10
  | .setStart v => (BitVec.ofBool v).setWidth 10
  | _ => 0#10

theorem encode_word (i : Instr) : (encode i).word = eventWordOf i.op i.arg := by
  cases i with
  | fill b => show 0x0400#16 + b.setWidth 16 = eventWordOf .fill (b.setWidth 10); revert b; decide
  | setStart v => cases v <;> rfl
  | _ => simp only [encode, Instr.op, Instr.arg]; rfl

theorem arg_within_mask (i : Instr) : i.arg &&& ~~~ argMask i.op = 0#10 := by
  cases i with
  | fill b => show b.setWidth 10 &&& ~~~ 0x00F#10 = 0#10; revert b; decide
  | setStart v => cases v <;> rfl
  | _ => exact BitVec.zero_and

/-- The operands fit beside the event word: a well-formed instruction, or a FILL whose header word is zero, which the
decoder does not test (R81; log 9, log 10). -/
def OperandsFit : Instr → Prop
  | .fill _ _ p _ => p.length < 1024
  | i => WellFormed i = true

theorem setWidth_bankArg (b : BankIdx) : (b.setWidth 10).setWidth 4 = b := by revert b; decide

/-- The operand words the encoder writes are read back. -/
theorem withOperands_encode {i : Instr} (h : OperandsFit i) : withOperands i.op i.arg (encode i).args = .ok i := by
  cases i with
  | fill b hd p f => exact fillOperands_eq_ok.mpr ⟨hd, p, f, rfl, h, by rw [Instr.arg, setWidth_bankArg]⟩
  | setStart v => cases v <;> rfl
  | mboxRead n => exact numberOperand_eq_ok.mpr ⟨n, rfl, h, rfl⟩
  | popBatch n => exact numberOperand_eq_ok.mpr ⟨n, rfl, h, rfl⟩
  | headerOf b | isFull b | readFooter b | clearHeader b => exact bankOperand_eq_ok.mpr ⟨b, rfl, rfl⟩
  | readPayloadWord b k => exact payloadOperands_eq_ok.mpr ⟨b, k, rfl, of_decide_eq_true h, rfl⟩
  | indicatorSet k | indicatorClear k => exact indicatorOperand_eq_ok.mpr ⟨k, rfl, rfl⟩
  | _ => rfl

theorem and_mask_of_within {w : Nat} {x m : BitVec w} (h : x &&& ~~~ m = 0#w) : x &&& m = x := by
  have hsplit : x &&& (m ||| ~~~ m) = (x &&& m) ||| (x &&& ~~~ m) := BitVec.and_or_distrib_left
  simpa [h] using hsplit.symm

theorem arg_eq_zero {arg : BitVec 10} (h : arg &&& ~~~ 0x000#10 = 0#10) : 0#10 = arg := by
  simpa using and_mask_of_within h

/-- FILL's argument bits are its bank (R76). -/
theorem arg_eq_bank {arg : BitVec 10} (h : arg &&& ~~~ 0x00F#10 = 0#10) : (arg.setWidth 4).setWidth 10 = arg := by
  rw [BitVec.setWidth_eq_append (by omega)]
  exact (BitVec.and_setWidth_allOnes 6 4 arg).symm.trans (and_mask_of_within h)

/-- SET_START's argument bit is its level (R76). -/
theorem arg_eq_level {arg : BitVec 10} (h : arg &&& ~~~ 0x001#10 = 0#10) :
    (BitVec.ofBool (arg.getLsbD 0)).setWidth 10 = arg :=
  BitVec.and_one_eq_setWidth_ofBool_getLsbD.symm.trans (and_mask_of_within h)

/-- The operation, the argument bits and the operand words of what the decoder reads are those it has read. -/
theorem fields_of_withOperands {op : Op} {arg : BitVec 10} {args : List Word} {i : Instr}
    (harg : arg &&& ~~~ argMask op = 0#10) (h : withOperands op arg args = .ok i) :
    i.op = op ∧ i.arg = arg ∧ (encode i).args = args ∧ OperandsFit i := by
  cases op
  case fill =>
    obtain ⟨hd, p, f, rfl, hp, rfl⟩ := fillOperands_eq_ok.mp h
    exact ⟨rfl, arg_eq_bank harg, rfl, hp⟩
  case setStart =>
    obtain ⟨rfl, rfl⟩ := noOperand_eq_ok.mp h
    exact ⟨rfl, arg_eq_level harg, rfl, rfl⟩
  case mboxRead | popBatch =>
    obtain ⟨n, rfl, hn, rfl⟩ := numberOperand_eq_ok.mp h
    exact ⟨rfl, arg_eq_zero harg, rfl, hn⟩
  case wordCount | push =>
    obtain ⟨w, rfl, hw⟩ := oneOperand_eq_ok.mp h
    cases hw
    exact ⟨rfl, arg_eq_zero harg, rfl, rfl⟩
  case headerOf | isFull | readFooter | clearHeader =>
    obtain ⟨w, rfl, hw⟩ := oneOperand_eq_ok.mp h
    obtain ⟨b, rfl, rfl⟩ := bankOperand_eq_ok.mp hw
    exact ⟨rfl, arg_eq_zero harg, rfl, rfl⟩
  case readPayloadWord =>
    obtain ⟨b, k, rfl, hk, rfl⟩ := payloadOperands_eq_ok.mp h
    exact ⟨rfl, arg_eq_zero harg, rfl, decide_eq_true hk⟩
  case indicatorSet | indicatorClear =>
    obtain ⟨w, rfl, hw⟩ := oneOperand_eq_ok.mp h
    obtain ⟨k, rfl, rfl⟩ := indicatorOperand_eq_ok.mp hw
    exact ⟨rfl, arg_eq_zero harg, rfl, rfl⟩
  all_goals
    obtain ⟨rfl, rfl⟩ := noOperand_eq_ok.mp h
    exact ⟨rfl, arg_eq_zero harg, rfl, rfl⟩

/-- The decoder accepts exactly the encodings of the instructions whose operands fit. -/
theorem decode_eq_ok_iff_encode {e : Event} {i : Instr} : decode e = .ok i ↔ encode i = e ∧ OperandsFit i := by
  rw [decode_eq_ok_iff_fields]
  constructor
  · rintro ⟨op, arg, hword, harg, hread⟩
    obtain ⟨rfl, rfl, hargs, hfit⟩ := fields_of_withOperands harg hread
    have hsame : (encode i).word = e.word := (encode_word i).trans hword.symm
    exact ⟨congrArg₂ Event.mk hsame hargs, hfit⟩
  · rintro ⟨rfl, hfit⟩
    exact ⟨i.op, i.arg, encode_word i, arg_within_mask i, withOperands_encode hfit⟩

theorem operandsFit_of_wellFormed {i : Instr} (h : WellFormed i = true) : OperandsFit i := by
  cases i with
  | fill b hd p f =>
    have hlen : decide (p.length < 1024) = true := (Bool.and_eq_true_iff.mp h).2
    exact show p.length < 1024 from of_decide_eq_true hlen
  | _ => exact h

/-- Settles O1: the decoder accepts every encoding whose operands fit. -/
theorem decodeOfEncode : Obligations.DecodeOfEncode :=
  fun _ hwf => decode_eq_ok_iff_encode.mpr ⟨rfl, operandsFit_of_wellFormed hwf⟩

/-- What fits is well-formed, but for a FILL's header word (log 10). -/
theorem OperandsFit.wellFormed {i : Instr} (h : OperandsFit i) (hheader : ∀ b p f, i ≠ .fill b 0#32 p f) :
    WellFormed i = true := by
  cases i with
  | fill b hd p f =>
    have hne : hd ≠ 0#32 := by rintro rfl; exact hheader b p f rfl
    exact Bool.and_eq_true_iff.mpr ⟨decide_eq_true hne, decide_eq_true (show p.length < 1024 from h)⟩
  | _ => exact h

theorem enabled_fill_zero (b : BankIdx) (p : List Word) (f : Word) (s : Machine.State) :
    Machine.enabled (.fill b 0#32 p f) s = false := by simp [Machine.enabled]

/-- Settles O2: the decoder accepts encodings alone, and what it answers fits. -/
theorem encodeOfDecode : Obligations.EncodeOfDecode := by
  intro e i hdecode
  obtain ⟨hencode, hfit⟩ := decode_eq_ok_iff_encode.mp hdecode
  refine ⟨hencode, hfit.wellFormed, ?_⟩
  rintro b p f rfl
  exact ⟨hfit, enabled_fill_zero b p f⟩

/-! ## Rows of the opcode table and reserved words -/

/-- A row is its operation's event word without argument bits, under the mask of the bits that are not arguments. -/
theorem tableRow_eq (i : Instr) : tableRow i = (eventWordOf i.op 0#10, 0b11#2 ++ 0xF#4 ++ ~~~ argMask i.op) := by
  cases i <;> simp only [tableRow, Instr.op] <;> decide

/-- A row's mask keeps the code of every event word. -/
theorem eventWordOf_and_mask (op : Op) (arg m : BitVec 10) :
    eventWordOf op arg &&& (0b11#2 ++ 0xF#4 ++ ~~~ m) = eventWordOf op (arg &&& ~~~ m) := by
  have hcls : op.cls &&& 0b11#2 = op.cls := BitVec.and_allOnes
  have hcode : op.code &&& 0xF#4 = op.code := BitVec.and_allOnes
  unfold eventWordOf
  rw [BitVec.and_append, BitVec.and_append, hcls, hcode]

theorem op_eq_of_eventWordOf_eq {op op' : Op} {arg arg' : BitVec 10} (h : eventWordOf op arg = eventWordOf op' arg') :
    op = op' := by
  have hop := opOf_eventWordOf op arg
  rw [h, opOf_eventWordOf] at hop
  exact (Option.some.inj hop).symm

/-- Settles O5: a row's mask keeps the code, and the code names the row. -/
theorem opcodeTableUnambiguous : Obligations.OpcodeTableUnambiguous := by
  intro i j hmatch
  rw [encode_word, tableRow_eq j, eventWordOf_and_mask] at hmatch
  rw [tableRow_eq, tableRow_eq, op_eq_of_eventWordOf_eq hmatch]

/-- The words R81 reserves: a `cls` and `code` that name nothing, or an argument bit that must be zero. -/
def ReservedWord (w : EventWord) : Prop :=
  (w.extractLsb' 14 2 = 0b00#2 ∧ 6 ≤ (w.extractLsb' 10 4).toNat) ∨
  (w.extractLsb' 14 2 = 0b01#2 ∧ 8 ≤ (w.extractLsb' 10 4).toNat) ∨
  (w.extractLsb' 14 2 = 0b10#2 ∧ 1 ≤ (w.extractLsb' 10 4).toNat) ∨
  (w.extractLsb' 14 2 = 0b11#2 ∧ (w.extractLsb' 10 4).toNat = 15) ∨
  (w.extractLsb' 10 6 = 0b000001#6 ∧ w.extractLsb' 4 6 ≠ 0#6) ∨
  (w.extractLsb' 10 6 = 0b000100#6 ∧ w.extractLsb' 1 9 ≠ 0#9) ∨
  (w.extractLsb' 10 6 ≠ 0b000001#6 ∧ w.extractLsb' 10 6 ≠ 0b000100#6 ∧ w.extractLsb' 0 10 ≠ 0#10)

/-- No instruction is encoded by a reserved word (R81). -/
theorem encode_not_reserved (i : Instr) : ¬ ReservedWord (encode i).word := by
  unfold ReservedWord
  cases i with
  | fill b => simp only [encode]; revert b; decide
  | setStart v => simp only [encode]; revert v; decide
  | _ => simp only [encode]; decide

theorem decode_of_reserved {w : EventWord} (hw : ReservedWord w) (args : List Word) :
    ∃ r, decode ⟨w, args⟩ = .error r := by
  cases hdecode : decode ⟨w, args⟩ with
  | error r => exact ⟨r, rfl⟩
  | ok i =>
    obtain ⟨hencode, _⟩ := decode_eq_ok_iff_encode.mp hdecode
    have hword : (encode i).word = w := by rw [hencode]
    exact absurd (hword ▸ hw) (encode_not_reserved i)

theorem step_of_invalid {s : Machine.State} {e : Event} {rest : List Event} {r : Reject} (h : s.script = e :: rest)
    (hdecode : decode e = .error r) : Machine.step s = .refused (.invalidEvent r) := by
  simp [Machine.step, Machine.fetch, h, hdecode]

/-- Settles O4: the encoder writes no reserved word, so the decoder, which accepts encodings alone, rejects them all. -/
theorem reservedEventWordsInvalid : Obligations.ReservedEventWordsInvalid := by
  refine ⟨fun w args hw => ?_, fun s => ?_⟩
  · obtain ⟨r, hdecode⟩ := decode_of_reserved hw args
    exact ⟨r, hdecode, fun s rest hscript => step_of_invalid hscript hdecode⟩
  · constructor
    · cases s.spillState <;> decide
    · cases s.phase <;> decide

/-- Settles O3 by running the decoder on each of the vectors, which are closed terms. -/
theorem eventWordVectors : Obligations.EventWordVectors := by
  unfold Obligations.EventWordVectors
  decide

end Sys2Proof
end

section
/-! The dispatch table of the polling agent (R79) and the frame of the primitives (R78). -/

namespace Sys2Proof.Machine

/-- A polling-agent step's guard holds in its rows of the table only (R79): the guards ask for different phases, and in SCAN
and HALT for different spill states or start levels. -/
theorem eq_pollingStep_of_enabled {i : Instr} {s : State} (hi : i.isPolling = true) (hguard : enabled i s = true) :
    i = pollingStep s := by
  cases i
  case scan =>
    obtain ⟨hphase, hspill⟩ : s.phase = .scan ∧ s.spillState = .beamOn := by simpa [enabled] using hguard
    simp [pollingStep, hphase, hspill]
  case beginSpill =>
    obtain ⟨⟨hspill, hphase⟩, hstart⟩ :
        (s.spillState = .ready ∧ (s.phase = .scan ∨ s.phase = .halt)) ∧ s.startEn = true := by
      simpa [enabled] using hguard
    rcases hphase with hphase | hphase <;> simp [pollingStep, hphase, hspill, hstart]
  case idle =>
    have hrows : (s.phase = .scan ∧ (s.spillState = .beamOff ∨ s.spillState = .ready ∧ s.startEn = false)) ∨
        (s.phase = .halt ∧ (s.spillState ≠ .ready ∨ s.startEn = false)) := by simpa [enabled] using hguard
    obtain ⟨hphase, hspill | ⟨hspill, hstart⟩⟩ | ⟨hphase, hstays⟩ := hrows
    · simp [pollingStep, hphase, hspill]
    · simp [pollingStep, hphase, hspill, hstart]
    · cases hspill : s.spillState <;> simp_all [pollingStep]
  case check | pushHdr | pushPay | pushFtr | clear =>
    have hphase := of_decide_eq_true hguard
    simp [pollingStep, hphase]
  all_goals cases hi

/-- Settles O8: the rows of the table, and that a polling-agent step's guard holds exactly in its rows. -/
theorem pollingDispatchTable : Obligations.PollingDispatchTable := by
  intro s
  refine ⟨?_, ?_, ?_, ?_, ?_, ?_, ?_, ?_, ?_, ?_, ?_, ?_, fun i hi => ⟨eq_pollingStep_of_enabled hi, ?_⟩⟩
  case refine_13 => rintro rfl; exact enabled_pollingStep s
  case refine_12 => rintro hphase (hspill | hspill) <;> simp [pollingStep, hphase, hspill]
  all_goals intros; simp [pollingStep, *]

/-- A push stages its word at the write cursor and no other (R98). -/
theorem pushWord_stagingWord (w : Word) (s : State) {a : Nat} (ha : a ≠ s.wr) :
    (pushWord w s).stagingWord a = s.stagingWord a := by
  rcases Nat.lt_or_ge s.wr s.cfg.stagingCapacity with hroom | hfull
  · rw [pushWord_of_lt w hroom]
    exact (putStaging_stagingWord s s.wr a w).trans (if_neg ha)
  · rw [pushWord_of_ge w hfull]
    exact stagingWord_congr (raise_staging s _) a

/-- Of the primitives only `push` writes the staging buffer (R78, R98). -/
theorem primitive_stagingWord {i : Instr} {s t : State} (hi : i.isStep = false) (h : exec i s = .next t) {a : Nat}
    (ha : a ≠ s.wr) : t.stagingWord a = s.stagingWord a := by
  by_cases hpush : ∃ w, i = .push w
  · obtain ⟨w, rfl⟩ := hpush
    cases h
    exact pushWord_stagingWord w s ha
  · have hout : .staging ∉ written i := by
      cases i
      case push w => exact absurd ⟨w, rfl⟩ hpush
      case indicatorSet k | indicatorClear k => by_cases hk : k = 0 <;> simp [written, hk]
      case headerOf | isFull | wordCount | readPayloadWord | readFooter | clearHeader | stagingReset | popBatch | occupied
        | readLevel | acknowledge | diagnosticWrite => simp [written]
      all_goals cases hi
    exact exec_frame h .staging hout a

/-- Settles O46: the frame of every instruction, the word a push stages, and the header that is cleared. -/
theorem primitiveFrame : Obligations.PrimitiveFrame := by
  intro i s t hi h
  refine ⟨exec_frame h, fun a => primitive_stagingWord hi h, ?_⟩
  rintro b c o rfl ho hne
  cases h
  rw [clearHeader_bankWord s ho, if_neg (fun hsame => hne.elim (· hsame.1) (· hsame.2))]

end Sys2Proof.Machine
end

section
/-! A whole record through the ingest sequencer (R84, R103, R106 to R111): SCAN and CHECK accept it, each push step stages one
more of its words (`Copying`), and CLEAR frees its bank. -/

namespace Sys2Proof.Machine

/-! ## Several polling steps -/

/-- One polling step is the effect of the step the dispatch table gives, entered in the history (R79). -/
theorem polls_one {i : Instr} {s t : State} (hi : pollingStep s = i) (h : effect i s = .ok t) :
    polls 1 s = .next (record (encode i) t) := by
  subst hi
  have hexec : exec (pollingStep s) s = .next (record (encode (pollingStep s)) t) := by
    rw [exec_of_step (isStep_of_isPolling (pollingStep_isPolling s)), tryStep_of_enabled (enabled_pollingStep s) h]
  simp only [polls, hexec]

theorem polls_trans {a b : Nat} {s t u : State} (hst : polls a s = .next t) (htu : polls b t = .next u) :
    polls (a + b) s = .next u := by
  induction a generalizing s with
  | zero => cases hst; rwa [Nat.zero_add]
  | succ a ih =>
    rw [Nat.succ_add]
    simp only [polls] at hst ⊢
    split at hst
    · exact ih hst
    · cases hst
    · cases hst

/-! ## What has been staged -/

/-- The sequencer's registers and the flags, which a copy may write besides the words it stages (R106 to R110). -/
def sequencerElems : List Elem :=
  [.phase, .hdrReg, .ftrReg, .cntReg, .payIdx, .fltStagingOvf, .fltBankCount, .fltIdMismatch]

/-- The words `f 0 .. f (m − 1)` have been staged above the write cursor, and nothing but the sequencer's own elements has
been written besides (R98). -/
structure Staged (f : Nat → Word) (m : Nat) (s t : State) : Prop where
  cfg : t.cfg = s.cfg
  frame : UnchangedBut (sequencerElems ++ [.staging, .wr, .occupied]) s t
  wr : t.wr = s.wr + m
  occupied : t.occupied = s.occupied + m
  words : ∀ a, t.stagingWord a = if s.wr ≤ a ∧ a < s.wr + m then f (a - s.wr) else s.stagingWord a

theorem Staged.refl (f : Nat → Word) (s : State) : Staged f 0 s s where
  cfg := rfl
  frame := UnchangedBut.refl _ s
  wr := rfl
  occupied := rfl
  words a := (if_neg (by omega)).symm

/-- A step that writes only the sequencer's elements stages nothing. -/
theorem Staged.sequenced {f : Nat → Word} {m : Nat} {s t u : State} (h : Staged f m s t) (hcfg : u.cfg = t.cfg)
    (hframe : UnchangedBut sequencerElems t u) : Staged f m s u where
  cfg := hcfg.trans h.cfg
  frame := h.frame.trans (hframe.mono (List.subset_append_left _ _))
  wr := (hframe .wr (by decide)).trans h.wr
  occupied := (hframe .occupied (by decide)).trans h.occupied
  words a := by
    have hsame : unchanged .staging t u := hframe .staging (by decide)
    rw [hsame a, h.words a]

theorem Staged.cursor {f : Nat → Word} {m : Nat} {s t : State} (h : Staged f m s t) : t.bankCursor = s.bankCursor :=
  h.frame .bankCursor (by decide)

theorem Staged.bankWord {f : Nat → Word} {m : Nat} {s t : State} (h : Staged f m s t) (b : BankIdx) (o : Nat) :
    t.bankWord b o = s.bankWord b o := by
  have hsame : unchanged .bank s t := h.frame .bank (by decide)
  exact hsame b o

theorem Staged.word_of_lt {f : Nat → Word} {m k : Nat} {s t : State} (h : Staged f m s t) (hk : k < m) :
    t.stagingWord (s.wr + k) = f k := by
  rw [h.words, if_pos (by omega), Nat.add_sub_cancel_left]

/-- A push stages the next word (R98). -/
theorem Staged.push {f : Nat → Word} {m : Nat} {s t : State} {w : Word} (h : Staged f m s t) (hw : f m = w) :
    Staged f (m + 1) s (stageWord w t) where
  cfg := h.cfg
  frame := by
    have hstage : UnchangedBut [.staging, .wr, .occupied] t (stageWord w t) := unchangedBut_of_overlay rfl
    exact h.frame.trans (hstage.mono (List.subset_append_right _ _))
  wr := congrArg (· + 1) h.wr
  occupied := congrArg (· + 1) h.occupied
  words a := by
    have hword : (stageWord w t).stagingWord a = if a = t.wr then w else t.stagingWord a :=
      putStaging_stagingWord t t.wr a w
    rw [hword, h.words a, h.wr]
    by_cases ha : a = s.wr + m
    · rw [if_pos ha, if_pos (by omega), ha, Nat.add_sub_cancel_left, hw]
    · rw [if_neg ha]
      exact if_congr (by omega) rfl rfl

/-! ## A record that CHECK accepts -/

/-- SCAN in BEAM_ON on a full bank whose count `n` is good and whose `n + 1` words fit (R106, R107). -/
structure Acceptable (n : Nat) (s : State) : Prop where
  offset : s.cfg.footerOffset < 1024
  phase : s.phase = .scan
  beam : s.spillState = .beamOn
  full : s.bankWord s.bankCursor 0 ≠ 0#32
  count : n = wordCount s.cfg (s.bankWord s.bankCursor 0)
  pos : 1 ≤ n
  le : n ≤ 1024
  room : s.wr + n + 1 ≤ s.cfg.stagingCapacity

/-- The words of the record at the cursor in the order they are staged: its bank's first `n` words, then the footer (R72). -/
def recordWord (n : Nat) (s : State) (k : Nat) : Word :=
  if k < n then s.bankWord s.bankCursor k else s.bankWord s.bankCursor s.cfg.footerOffset

theorem scanBank_of_full {s : State} (h : s.bankWord s.bankCursor 0 ≠ 0#32) :
    scanBank s = { s with hdrReg := s.bankWord s.bankCursor 0, phase := .check } := if_neg h

/-- SCAN latches the header (R106). -/
theorem Acceptable.scanned {n : Nat} {s : State} (h : Acceptable n s) : ∃ t, polls 1 s = .next t ∧
    t.phase = .check ∧ t.hdrReg = s.bankWord s.bankCursor 0 ∧ Staged (recordWord n s) 0 s t := by
  have hi : pollingStep s = .scan := by simp [pollingStep, h.phase, h.beam]
  refine ⟨_, polls_one hi rfl, ?_⟩
  rw [scanBank_of_full h.full]
  exact ⟨rfl, rfl, (Staged.refl _ s).sequenced rfl (unchangedBut_of_overlay rfl)⟩

/-- CHECK latches the count and the footer, and lets the record pass (R107). -/
theorem Acceptable.checked {n : Nat} {s t : State} (h : Acceptable n s) (hphase : t.phase = .check)
    (hhdr : t.hdrReg = s.bankWord s.bankCursor 0) (hstaged : Staged (recordWord n s) 0 s t) :
    ∃ u, polls 1 t = .next u ∧ u.phase = .pushHdr ∧ u.hdrReg = s.bankWord s.bankCursor 0 ∧ u.cntReg = n ∧
      u.ftrReg = s.bankWord s.bankCursor s.cfg.footerOffset ∧ Staged (recordWord n s) 0 s u := by
  have hi : pollingStep t = .check := by simp [pollingStep, hphase]
  obtain ⟨u, hu⟩ := checkRecord_of_lt t (hstaged.cfg ▸ h.offset)
  refine ⟨_, polls_one hi hu, ?_⟩
  obtain ⟨_, m, f, hm, rfl, rfl⟩ := checkRecord_ok hu
  have hmn : m = n := by rw [hm, hstaged.cfg, hhdr, ← h.count]
  have hgood : badCount m = false := badCount_eq_false.mpr (hmn ▸ ⟨h.pos, h.le⟩)
  have hfits : overflows m t = false := by
    rw [overflows_eq_false, hmn, hstaged.wr, hstaged.cfg]
    exact h.room
  have hftr : t.bankWord t.bankCursor t.cfg.footerOffset = s.bankWord s.bankCursor s.cfg.footerOffset := by
    rw [hstaged.bankWord, hstaged.cursor, hstaged.cfg]
  exact ⟨by simp [record, hgood, hfits], hhdr, hmn, hftr, hstaged.sequenced rfl (unchangedBut_of_overlay rfl)⟩

/-! ## The copy -/

/-- `m` words of the record of count `n` at the cursor of `s` are staged, the header among them, and the next is due. -/
structure Copying (n m : Nat) (s t : State) : Prop where
  staged : Staged (recordWord n s) m s t
  count : t.cntReg = n
  footer : t.ftrReg = s.bankWord s.bankCursor s.cfg.footerOffset
  due : (m < n ∧ t.phase = .pushPay ∧ t.payIdx = m) ∨ (m = n ∧ t.phase = .pushFtr)

theorem Acceptable.room_for {n m : Nat} {s t : State} {f : Nat → Word} (h : Acceptable n s) (hstaged : Staged f m s t)
    (hm : m ≤ n) : t.wr < t.cfg.stagingCapacity := by
  have hroom := h.room
  rw [hstaged.wr, hstaged.cfg]
  omega

/-- A push step with room stages its word and goes on (R98). -/
theorem pushThen_of_room (w : Word) (f : State → State) {s : State} (h : s.wr < s.cfg.stagingCapacity) :
    pushThen w f s = f (stageWord w s) := by
  rw [pushThen_of_lt w f h, pushWord_of_lt w h]
  rfl

/-- PUSH_HDR stages the header, the record's word 0 (R108). -/
theorem Acceptable.header_pushed {n : Nat} {s t : State} (h : Acceptable n s) (hphase : t.phase = .pushHdr)
    (hhdr : t.hdrReg = s.bankWord s.bankCursor 0) (hcnt : t.cntReg = n)
    (hftr : t.ftrReg = s.bankWord s.bankCursor s.cfg.footerOffset) (hstaged : Staged (recordWord n s) 0 s t) :
    ∃ u, polls 1 t = .next u ∧ Copying n 1 s u := by
  have hi : pollingStep t = .pushHdr := by simp [pollingStep, hphase]
  refine ⟨_, polls_one hi rfl, ?_⟩
  rw [pushThen_of_room _ _ (h.room_for hstaged (Nat.zero_le n))]
  have hword : recordWord n s 0 = t.hdrReg := (if_pos h.pos).trans hhdr.symm
  refine ⟨(hstaged.push hword).sequenced rfl (unchangedBut_of_overlay rfl), hcnt, hftr, ?_⟩
  obtain hone | hmore := Nat.eq_or_lt_of_le h.pos
  · exact .inr ⟨hone, if_pos (hcnt.trans hone.symm)⟩
  · exact .inl ⟨hmore, if_neg (show t.cntReg ≠ 1 by omega), rfl⟩

/-- PUSH_PAY stages the bank's next word (R109). -/
theorem Acceptable.payload_pushed {n m : Nat} {s t : State} (h : Acceptable n s) (hm : m < n) (hcopy : Copying n m s t) :
    ∃ u, polls 1 t = .next u ∧ Copying n (m + 1) s u := by
  obtain ⟨hstaged, hcnt, hftr, ⟨_, hphase, hpay⟩ | ⟨hdone, _⟩⟩ := hcopy
  · have hi : pollingStep t = .pushPay := by simp [pollingStep, hphase]
    have hle := h.le
    obtain ⟨u, hu⟩ := pushPayload_of_lt (s := t) (by omega)
    refine ⟨_, polls_one hi hu, ?_⟩
    obtain ⟨_, rfl⟩ := pushPayload_ok hu
    rw [pushThen_of_room _ _ (h.room_for hstaged (Nat.le_of_lt hm)), afterPayload_eq]
    have hword : recordWord n s m = t.bankWord t.bankCursor t.payIdx := by
      rw [recordWord, if_pos hm, hstaged.bankWord, hstaged.cursor, hpay]
    refine ⟨(hstaged.push hword).sequenced rfl (unchangedBut_of_overlay rfl), hcnt, hftr, ?_⟩
    obtain hlast | hmore := Nat.eq_or_lt_of_le (Nat.succ_le_of_lt hm)
    · exact .inr ⟨hlast, if_pos (show t.payIdx + 1 = t.cntReg by omega)⟩
    · have hne : t.payIdx + 1 ≠ t.cntReg := by omega
      exact .inl ⟨hmore, (if_neg hne).trans hphase, (if_neg hne).trans (congrArg (· + 1) hpay)⟩
  · omega

/-- The payload loop, by induction on the words that are left (R109). -/
theorem Acceptable.payload_copied {n : Nat} {s : State} (h : Acceptable n s) (r : Nat) :
    ∀ {m : Nat} {t : State}, m + r = n → Copying n m s t → ∃ u, polls r t = .next u ∧ Copying n n s u := by
  induction r with
  | zero => rintro m t rfl hcopy; exact ⟨t, rfl, hcopy⟩
  | succ r ih =>
    intro m t hmr hcopy
    obtain ⟨u, htu, hu⟩ := h.payload_pushed (by omega) hcopy
    obtain ⟨v, huv, hv⟩ := ih (by omega) hu
    exact ⟨v, Nat.add_comm 1 r ▸ polls_trans htu huv, hv⟩

/-- PUSH_FTR stages the footer after the record's `n` words (R110). -/
theorem Acceptable.footer_pushed {n : Nat} {s t : State} (h : Acceptable n s) (hcopy : Copying n n s t) :
    ∃ u, polls 1 t = .next u ∧ u.phase = .clear ∧ Staged (recordWord n s) (n + 1) s u := by
  obtain ⟨hstaged, _, hftr, ⟨hlt, _⟩ | ⟨_, hphase⟩⟩ := hcopy
  · omega
  · have hi : pollingStep t = .pushFtr := by simp [pollingStep, hphase]
    refine ⟨_, polls_one hi rfl, ?_⟩
    rw [pushThen_of_room _ _ (h.room_for hstaged (Nat.le_refl n))]
    have hword : recordWord n s n = t.ftrReg := (if_neg (Nat.lt_irrefl n)).trans hftr.symm
    exact ⟨rfl, (hstaged.push hword).sequenced rfl (unchangedBut_of_overlay rfl)⟩

/-- The record is staged whole in `n + 3` polling steps, and CLEAR is due (R106 to R110). -/
theorem Acceptable.staged_whole {n : Nat} {s : State} (h : Acceptable n s) :
    ∃ t, polls (n + 3) s = .next t ∧ t.phase = .clear ∧ Staged (recordWord n s) (n + 1) s t := by
  obtain ⟨t₁, hscan, hphase, hhdr, hstaged⟩ := h.scanned
  obtain ⟨t₂, hcheck, hphase, hhdr, hcnt, hftr, hstaged⟩ := h.checked hphase hhdr hstaged
  obtain ⟨t₃, hhead, hcopy⟩ := h.header_pushed hphase hhdr hcnt hftr hstaged
  have hpos := h.pos
  obtain ⟨t₄, hpayload, hcopy⟩ := h.payload_copied (n - 1) (by omega) hcopy
  obtain ⟨t₅, hfoot, hphase, hstaged⟩ := h.footer_pushed hcopy
  have hrun := polls_trans hscan (polls_trans hcheck (polls_trans hhead (polls_trans hpayload hfoot)))
  have hsteps : 1 + (1 + (1 + (n - 1 + 1))) = n + 3 := by omega
  exact ⟨t₅, hsteps ▸ hrun, hphase, hstaged⟩

theorem nextBank_toNat (b : BankIdx) : (nextBank b).toNat = (b.toNat + 1) % 16 := by simp [nextBank]

/-- Settles O28: the record is staged whole, and CLEAR frees its bank. -/
theorem recordIngestedWhole : Obligations.RecordIngestedWhole := by
  intro s n hvalid hphase hbeam hfull hcount hpos hle hroom
  have h : Acceptable n s := ⟨hvalid.footer_high, hphase, hbeam, hfull, hcount, hpos, hle, hroom⟩
  obtain ⟨t, hcopied, hclear, hstaged⟩ := h.staged_whole
  have hi : pollingStep t = .clear := by simp [pollingStep, hclear]
  have hbank {b : BankIdx} {o : Nat} (ho : o < 1024) : (freeBank t).bankWord b o =
      if b = s.bankCursor ∧ o = 0 then 0#32 else s.bankWord b o := by
    rw [← hstaged.cursor, ← hstaged.bankWord]
    exact clearHeader_bankWord t ho
  have hcursor : (freeBank t).bankCursor = nextBank s.bankCursor := congrArg nextBank hstaged.cursor
  have hrun : polls (n + 4) s = .next (record (encode .clear) (freeBank t)) :=
    polls_trans (a := n + 3) hcopied (polls_one hi rfl)
  refine ⟨_, hrun, rfl, (hstaged.frame .spillState (by decide)).trans hbeam,
    (congrArg BitVec.toNat hcursor).trans (nextBank_toNat _), hstaged.wr, hstaged.occupied,
    hstaged.frame .rd (by decide), ?header, ?payload, ?footer, ?others, (hbank (by omega)).trans (if_pos ⟨rfl, rfl⟩),
    ?banks, hstaged.frame .mailbox (by decide), hstaged.frame .lineLevel (by decide),
    hstaged.frame .edgeLatch (by decide), hstaged.cfg⟩
  case header => exact (hstaged.word_of_lt (Nat.succ_pos n)).trans (if_pos hpos)
  case payload => exact fun k _ hk => (hstaged.word_of_lt (Nat.lt_succ_of_lt hk)).trans (if_pos hk)
  case footer => exact (hstaged.word_of_lt (Nat.lt_succ_self n)).trans (if_neg (Nat.lt_irrefl n))
  case others => exact fun a ha => (hstaged.words a).trans (if_neg (by omega))
  case banks => exact fun b o ho hne => (hbank ho).trans (if_neg fun hsame => hne.elim (· hsame.1) (· hsame.2))

end Sys2Proof.Machine
end

section
/-! The BankStore (40_bankstore.md): what FILL and `clear_header` write and leave, the five reads, and how the bank cursor
moves (R86 to R95). -/

namespace Sys2Proof.Machine

/-! ## FILL -/

/-- FILL's guard: an empty bank and a header word that is not zero (R91, R180; log 10). -/
theorem enabled_fill_iff {b : BankIdx} {hd f : Word} {p : List Word} {s : State} :
    enabled (.fill b hd p f) s = true ↔ s.bankWord b 0 = 0#32 ∧ hd ≠ 0#32 := by
  simp only [enabled, Bool.and_eq_true, decide_eq_true_eq]
  exact Iff.rfl

theorem enabled_fill_eq_false {b : BankIdx} {hd f : Word} {p : List Word} {s : State}
    (h : s.bankWord b 0 ≠ 0#32 ∨ hd = 0#32) : enabled (.fill b hd p f) s = false :=
  Bool.eq_false_iff.mpr fun hguard =>
    have ⟨hempty, hfull⟩ := enabled_fill_iff.mp hguard
    h.elim (· hempty) hfull

theorem isFull_eq_true {b : BankIdx} {s : State} : s.isFull b = true ↔ s.bankWord b 0 ≠ 0#32 := decide_eq_true_iff

theorem isFull_eq_false {b : BankIdx} {s : State} : s.isFull b = false ↔ s.bankWord b 0 = 0#32 := by
  rw [Bool.eq_false_iff, ne_eq, isFull_eq_true, not_ne_iff]

/-- Every bank word after FILL: the writes come payload, footer, header, and the last one at a place stands (R91). -/
theorem fillBank_bankWord {b : BankIdx} {hd f : Word} {p : List Word} {s t : State} (h : fillBank b hd p f s = .ok t)
    (c : BankIdx) {o : Nat} (ho : o < 1024) :
    t.bankWord c o =
      if c ≠ b then s.bankWord c o
      else if o = 0 then hd
      else if o = s.cfg.footerOffset then f
      else if o ≤ p.length then p.getD (o - 1) 0#32
      else s.bankWord c o := by
  unfold fillBank at h
  split at h
  · cases h
  · rename_i u hpayload
    split at h
    · cases h
    · rename_i v hfooter
      obtain ⟨hoff, rfl⟩ := bankWrite_ok hfooter
      obtain ⟨_, rfl⟩ := bankWrite_ok h
      obtain ⟨_, hword, _⟩ := bankWriteRun_ok hpayload
      rw [putBank_bankWord _ _ (by omega) ho, putBank_bankWord _ _ hoff ho, hword c o ho]
      by_cases hc : c = b
      · have hrange (hpos : o ≠ 0) : (1 ≤ o ∧ o < 1 + p.length) ↔ o ≤ p.length := by omega
        by_cases hpos : o = 0
        · simp [hc, hpos]
        · simp [hc, hpos, hrange hpos]
      · simp [hc]

/-- Settles O16: FILL's three writes word by word, and its guard. -/
theorem fillWritesRecord : Obligations.FillWritesRecord := by
  intro b hd f p s
  refine ⟨rfl, fun hvalid hlen hhd hempty => ?_,
    fun hnot => disabledStepHasNoEffect (.fill b hd p f) s rfl (enabled_fill_eq_false hnot)⟩
  obtain ⟨t, ht⟩ := fillBank_of_lt b hd f hlen hvalid.footer_high
  have hexec : exec (.fill b hd p f) s = .next (record (encode (.fill b hd p f)) t) :=
    tryStep_of_enabled (enabled_fill_iff.mpr ⟨hempty, hhd⟩) ht
  obtain ⟨_, hheader, _⟩ := fillBank_ok ht
  have hfull : t.isFull b = true := isFull_eq_true.mpr (hheader.trans_ne hhd)
  exact ⟨_, hexec, exec_frame hexec, hfull, fun c _ ho => fillBank_bankWord ht c ho⟩

/-- FILL writes words of its own bank only (R91). -/
theorem exec_fill_other_bank {b c : BankIdx} {hd f : Word} {p : List Word} {s t : State}
    (h : exec (.fill b hd p f) s = .next t) (hc : c ≠ b) {o : Nat} (ho : o < 1024) :
    t.bankWord c o = s.bankWord c o := by
  obtain ⟨_, rfl⟩ | ⟨_, u, hu, rfl⟩ := exec_step_next rfl h
  · rfl
  · exact (fillBank_bankWord hu c ho).trans (if_pos hc)

/-- Settles O45: the frame of every instruction, and the banks that are not FILL's. -/
theorem environmentFrame : Obligations.EnvironmentFrame := by
  intro i s t _ _ _ h
  refine ⟨exec_frame h, ?_⟩
  rintro b hd p f rfl c o hc ho
  exact exec_fill_other_bank h hc ho

/-! ## The primitives -/

/-- `word_count(h)`, the header's bits `CNT_HI:CNT_LO`, as a shift and a remainder (R69, R88). -/
theorem wordCount_eq_shift (p : Params) (h : Word) :
    wordCount p h = (h >>> p.cntLo).toNat % 2 ^ (p.cntHi - p.cntLo + 1) := by
  rw [wordCount, BitVec.extractLsb'_toNat, BitVec.toNat_ushiftRight, countWidth]

/-- A read inside the bank returns the word there and changes nothing else (R47, R89, R90). -/
theorem answerWord_bankRead (b : BankIdx) {o : Nat} (s : State) (ho : o < 1024) :
    answerWord (bankRead b o s) s = .next { s with ret := .word (s.bankWord b o) } := by
  rw [bankRead_of_lt s ho]; rfl

/-- Of the steps FILL, CLEAR and BEGIN_SPILL alone write the banks (R91, R111, R133). -/
theorem bank_not_written {i : Instr} (hi : i.isStep = true) (hclear : i ≠ .clear) (hspill : i ≠ .beginSpill)
    (hfill : ∀ b hd p f, i ≠ .fill b hd p f) : .bank ∉ written i := by
  cases i
  case fill b hd p f => exact absurd rfl (hfill b hd p f)
  all_goals simp_all [Instr.isStep, written]

/-- A header is stable but for a FILL of its bank, CLEAR and BEGIN_SPILL (R86). -/
theorem headerOf_stable {b : BankIdx} {i : Instr} {s t : State} (hi : i.isStep = true) (hclear : i ≠ .clear)
    (hspill : i ≠ .beginSpill) (hfill : ∀ hd p f, i ≠ .fill b hd p f) (h : exec i s = .next t) :
    t.headerOf b = s.headerOf b := by
  by_cases hother : ∃ c hd p f, i = .fill c hd p f
  · obtain ⟨c, hd, p, f, rfl⟩ := hother
    have hne : b ≠ c := by rintro rfl; exact hfill hd p f rfl
    exact exec_fill_other_bank h hne (by omega)
  · have hbank : .bank ∉ written i :=
      bank_not_written hi hclear hspill fun c hd p f heq => hother ⟨c, hd, p, f, heq⟩
    exact exec_frame h .bank hbank b 0

/-- `clear_header(b)` on an empty bank leaves every bank word (R93). -/
theorem clearHeader_of_empty {b : BankIdx} {s : State} (h : s.bankWord b 0 = 0#32) (c : BankIdx) {o : Nat}
    (ho : o < 1024) : (clearHeader b s).bankWord c o = s.bankWord c o := by
  rw [clearHeader_bankWord s ho]
  split
  · rename_i hsame
    obtain ⟨rfl, rfl⟩ := hsame
    exact h.symm
  · rfl

/-- Settles O38, primitive by primitive. -/
theorem bankStorePrimitives : Obligations.BankStorePrimitives := by
  intro b h k s hvalid
  refine ⟨⟨rfl, rfl, rfl, rfl, rfl, rfl⟩, ⟨_, rfl, rfl, ?_⟩, ?stable, ⟨_, rfl, rfl, ?_⟩, ⟨_, rfl, ?count, ?_⟩,
    fun _ hk => ⟨_, answerWord_bankRead b s hk, rfl, ?_⟩,
    ⟨_, answerWord_bankRead b s hvalid.footer_high, rfl, ?_⟩, ⟨_, rfl, ?cleared⟩⟩
  case stable => exact fun i u hi hclear hspill hfill hexec => headerOf_stable hi hclear hspill hfill hexec
  case count => rw [wordCount_eq_shift]
  case cleared =>
    have hzero : (clearHeader b s).bankWord b 0 = 0#32 :=
      (clearHeader_bankWord s (by omega)).trans (if_pos ⟨rfl, rfl⟩)
    refine ⟨hzero, isFull_eq_false.mpr hzero, fun g p f hg => enabled_fill_iff.mpr ⟨hzero, hg⟩, fun c o ho hne => ?_,
      fun hempty c o ho => clearHeader_of_empty hempty c ho, unchangedBut_of_overlay rfl⟩
    exact (clearHeader_bankWord s ho).trans (if_neg fun hsame => hne.elim (· hsame.1) (· hsame.2))
  all_goals exact unchangedBut_of_overlay rfl

/-! ## The bank cursor -/

/-- What an instruction may do to the bank cursor: leave it, move it on from an empty bank or from the bank CLEAR frees, or
set it to 0 (R95). -/
def CursorMove (i : Instr) (s t : State) : Prop :=
  t.bankCursor = s.bankCursor ∨
  (t.bankCursor = nextBank s.bankCursor ∧ i = .scan ∧ s.bankWord s.bankCursor 0 = 0#32) ∨
  (t.bankCursor = nextBank s.bankCursor ∧ i = .clear) ∨
  (t.bankCursor = 0#4 ∧ (i = .beginSpill ∨ i = .reset))

theorem scanBank_cursorMove (s : State) : CursorMove .scan s (scanBank s) := by
  rw [scanBank_eq]
  by_cases hempty : s.headerOf s.bankCursor = 0#32
  · exact .inr (.inl ⟨if_pos hempty, rfl, hempty⟩)
  · exact .inl (if_neg hempty)

theorem effect_cursorMove {i : Instr} {s t : State} (h : effect i s = .ok t) : CursorMove i s t := by
  cases i with
  | scan => cases h; exact scanBank_cursorMove s
  | clear => cases h; exact .inr (.inr (.inl ⟨rfl, rfl⟩))
  | beginSpill =>
    cases h
    obtain ⟨_, _, hspill, _⟩ := beginSpill_spec s
    rw [hspill]
    exact .inr (.inr (.inr ⟨rfl, .inl rfl⟩))
  | reset => cases h; exact .inr (.inr (.inr ⟨rfl, .inr rfl⟩))
  | indicatorSet k => cases h; rw [indicatorSet_eq]; exact .inl rfl
  | indicatorClear k => cases h; rw [indicatorClear_eq]; exact .inl rfl
  | _ => exact .inl (effect_frame h .bankCursor (by simp [written]))

theorem exec_cursorMove {i : Instr} {s t : State} (h : exec i s = .next t) : CursorMove i s t := by
  obtain ⟨_, _, rfl⟩ | ⟨_, _, u, hu, rfl⟩ | ⟨_, hu⟩ := exec_next h
  · exact .inl rfl
  · have hmove : CursorMove i s u := effect_cursorMove hu
    exact hmove
  · exact effect_cursorMove hu

/-- Settles O50: what each instruction does to the cursor. -/
theorem bankCursorMoves : Obligations.BankCursorMoves :=
  ⟨nextBank_toNat, fun _ _ _ h hmoved => (exec_cursorMove h).resolve_left hmoved⟩

end Sys2Proof.Machine
end

section
/-! The staging buffer (41_staging.md): the four primitives on its cursors, and that the words awaiting drain
leave it in the order they were pushed (R97 to R102). -/

namespace Sys2Proof.Machine

/-! ## The primitives -/

/-- Settles O39: each primitive is one update of the registers its rule names. -/
theorem registerPrimitives : Obligations.RegisterPrimitives := by
  refine ⟨⟨rfl, rfl, rfl, rfl, rfl⟩, fun s => ⟨?reset, ?occupied, ?level, ?acknowledge, rfl⟩⟩
  case reset => exact ⟨_, rfl, rfl, rfl, rfl, unchangedBut_of_overlay rfl⟩
  case occupied => exact ⟨_, rfl, rfl, unchangedBut_of_overlay rfl⟩
  case level => exact ⟨_, rfl, rfl, unchangedBut_of_overlay rfl⟩
  case acknowledge => exact ⟨_, rfl, rfl, rfl, unchangedBut_of_overlay rfl⟩

theorem stageWord_stagingWord (w : Word) (s : State) (a : Nat) :
    (stageWord w s).stagingWord a = if a = s.wr then w else s.stagingWord a :=
  putStaging_stagingWord s s.wr a w

theorem pushWord_of_room (w : Word) {s : State} (h : s.wr < s.cfg.stagingCapacity) : pushWord w s = stageWord w s :=
  pushWord_of_lt w h

/-- Settles O40: below the end of the buffer a push stages its word, at the end it raises STAGING_OVERFLOW. -/
theorem pushPrimitive : Obligations.PushPrimitive := by
  refine fun w s => ⟨rfl, fun hroom => ⟨_, rfl, ?_⟩, fun hfull => ⟨_, rfl, ?_⟩⟩
  · rw [pushWord_of_room w hroom]
    exact ⟨(stageWord_stagingWord w s s.wr).trans (if_pos rfl), rfl, rfl,
      fun a ha => (stageWord_stagingWord w s a).trans (if_neg ha), unchangedBut_of_overlay rfl⟩
  · rw [pushWord_of_ge w (Nat.le_of_eq hfull.symm)]
    exact ⟨rfl, rfl, unchangedBut_of_overlay rfl⟩

/-- An empty batch reads no staging word, so it needs no room (R99). -/
theorem popBatch_of_empty {m : Nat} {s : State} (h : batchSize m s = 0) : popBatch m s = .ok ([], s) := by
  simp [popBatch, h, stagReadRun]

/-- The call answers the count and the words of the batch it pops (R99). -/
theorem exec_popBatch {m : Nat} {ws : List Word} {s t : State} (h : popBatch m s = .ok (ws, t)) :
    exec (.popBatch m) s = .next { t with ret := .batch (batchSize m s) ws } := by
  rw [exec_of_primitive rfl, effect, h]
  rfl

/-- The words awaiting drain end at the write cursor (R24). -/
theorem CursorInv.rd_add_occupied {s : State} (hs : CursorInv s) : s.rd + s.occupied = s.wr := by
  have hle := hs.rd_le_wr
  have hocc := hs.occupied_eq
  omega

/-- Settles O41: a batch of words awaiting drain lies inside the staging space, and an empty batch moves nothing. -/
theorem popBatchPrimitive : Obligations.PopBatchPrimitive := by
  refine fun m count s => ⟨rfl, fun hs hcount => ?_, fun hnone => ?_⟩
  · subst hcount
    have hbatch : batchSize m s ≤ s.occupied := Nat.min_le_right _ _
    have hend := hs.rd_add_occupied
    have hcap := hs.wr_le_S
    exact ⟨_, exec_popBatch (popBatch_of_le m s (by omega)), rfl, rfl, rfl, unchangedBut_of_overlay rfl⟩
  · have hempty : batchSize m s = 0 := by
      obtain rfl | hocc := hnone
      · exact Nat.zero_min _
      · rw [batchSize, hocc, Nat.min_zero]
    refine ⟨_, exec_popBatch (popBatch_of_empty hempty), ?_, unchangedBut_of_overlay rfl⟩
    rw [hempty]

/-! ## The words awaiting drain (R102) -/

theorem pending_of_unchanged {s t : State} (hrd : t.rd = s.rd) (hocc : t.occupied = s.occupied)
    (hword : unchanged .staging s t) : pending t = pending s := by
  rw [pending, hrd, hocc]
  exact List.map_congr_left fun k _ => hword _

/-- A staged word comes after the words awaiting drain, which stand below the write cursor (R98, R24). -/
theorem pending_stageWord (w : Word) {s : State} (hs : CursorInv s) : pending (stageWord w s) = pending s ++ [w] := by
  have hend := hs.rd_add_occupied
  have hlast : (stageWord w s).stagingWord (s.rd + s.occupied) = w :=
    (stageWord_stagingWord w s _).trans (if_pos hend)
  have hbelow : ∀ k ∈ List.range s.occupied, (stageWord w s).stagingWord (s.rd + k) = s.stagingWord (s.rd + k) := by
    intro k hk
    have hlt := List.mem_range.mp hk
    exact (stageWord_stagingWord w s _).trans (if_neg (by omega))
  show (List.range (s.occupied + 1)).map (fun k => (stageWord w s).stagingWord (s.rd + k)) = _
  rw [List.range_succ, List.map_append, List.map_congr_left hbelow, List.map_singleton, hlast]
  rfl

/-- A push step with room appends its word, whatever it does to the sequencer afterwards (R98, R102). -/
theorem pending_pushThen {f : State → State} (hf : ∀ u, pending (f u) = pending u) (w : Word) {s : State}
    (hs : CursorInv s) (hroom : s.wr < s.cfg.stagingCapacity) : pending (pushThen w f s) = pending s ++ [w] := by
  rw [pushThen_of_room w f hroom, hf, pending_stageWord w hs]

theorem afterPayload_pending (s : State) : pending (afterPayload s) = pending s := by
  rw [afterPayload_eq]
  rfl

/-- A batch takes the oldest of the words awaiting drain into the frame's body, in order (R99, R121, R122). -/
theorem moveBatch_pending {s t : State} (h : moveBatch s = .ok t) :
    pending s = frameBody (drainSize s) t ++ pending t := by
  obtain ⟨hcursors, hframe, _⟩ := moveBatch_ok h
  have hsize : drainSize s ≤ s.occupied := Nat.min_le_right _ _
  have hbody : frameBody (drainSize s) t = (List.range (drainSize s)).map fun k => s.stagingWord (s.rd + k) := by
    refine List.map_congr_left fun k hk => ?_
    have hlt := List.mem_range.mp hk
    rw [hframe, if_neg (by omega), if_pos (by omega), Nat.add_sub_cancel_left]
  have hrest : pending t =
      (List.range (s.occupied - drainSize s)).map fun k => s.stagingWord (s.rd + (drainSize s + k)) := by
    rw [hcursors]
    simp only [pending, State.stagingWord, Nat.add_assoc]
  rw [hbody, hrest, pending]
  conv_lhs => rw [← Nat.add_sub_cancel' hsize, List.range_add, List.map_append, List.map_map]
  rfl

/-- The first drain sets the read cursor to where it stands in BEAM_ON (R24, R123). -/
theorem firstDrain_pending {s : State} (hs : CursorInv s) : pending (firstDrain s) = pending s := by
  have hrd : (if s.spillState = .beamOn then 0 else s.rd) = s.rd := by
    split
    · exact (hs.beam_on ‹_›).symm
    · rfl
  rw [(firstDrain_spec s).1, hrd]
  rfl

theorem firstDrain_drainSize (s : State) : drainSize (firstDrain s) = drainSize s := by
  rw [(firstDrain_spec s).1]
  rfl

/-- DRAIN served high delivers the oldest words and leaves the others waiting (R102, R122). -/
theorem drainBatch_pending {s t : State} (hs : CursorInv s) (hlevel : s.lineLevel = true) (h : drainBatch s = .ok t) :
    pending s = frameBody (drainSize s) t ++ pending t := by
  rw [drainBatch_of_high hlevel] at h
  obtain ⟨u, hu, rfl⟩ := exists_of_map_ok h
  have hbatch := moveBatch_pending hu
  rw [firstDrain_pending hs, firstDrain_drainSize] at hbatch
  rw [hbatch, endOfDrain_spec]
  rfl

/-! ## First in, first out -/

/-- An accepted record has room for each of its words (R98, R107). -/
theorem RecordInv.push_room {i : Instr} {s : State} (hs : RecordInv s) (hguard : enabled i s = true)
    (hi : i = .pushHdr ∨ i = .pushPay ∨ i = .pushFtr) : s.wr < s.cfg.stagingCapacity := by
  obtain rfl | rfl | rfl := hi
  · have hroom := hs.room_header (of_decide_eq_true hguard)
    omega
  · have hroom := hs.room_payload (of_decide_eq_true hguard)
    omega
  · exact hs.room_footer (of_decide_eq_true hguard)

/-- A step that neither pushes, resets the cursors nor drains writes neither the buffer nor its read side (R102). -/
theorem effect_pending_of_other {i : Instr} {s t : State} (hi : i.isStep = true) (h : effect i s = .ok t)
    (hhdr : i ≠ .pushHdr) (hpay : i ≠ .pushPay) (hftr : i ≠ .pushFtr) (hreset : i ≠ .reset)
    (hspill : i ≠ .beginSpill) (hdrain : i ≠ .drain) : pending t = pending s := by
  have hout : .rd ∉ written i ∧ .occupied ∉ written i ∧ .staging ∉ written i := by
    cases i
    case fill | lineRise | lineFall | setStart | mboxRead | scan | check | clear | idle => simp [written]
    case pushHdr | pushPay | pushFtr | reset | beginSpill | drain => contradiction
    all_goals cases hi
  obtain ⟨hrd, hocc, hstaging⟩ := hout
  have frame := effect_frame h
  exact pending_of_unchanged (frame .rd hrd) (frame .occupied hocc) (frame .staging hstaging)

/-- Settles O33: what each step's effect does to the words awaiting drain; its history entry does not touch them. -/
theorem stagingIsFifo : Obligations.StagingIsFifo := by
  intro i s t hinv hi hguard h
  obtain ⟨hoff, _⟩ | ⟨_, u, hu, rfl⟩ := exec_step_next hi h
  · rw [hguard] at hoff; cases hoff
  have hs := hinv.cursors
  have hroom := hinv.sequencer.push_room hguard
  refine ⟨?header, ?payload, ?footer, ?drain, ?forget, ?keep⟩
  case header =>
    rintro rfl
    cases hu
    exact pending_pushThen (f := afterHeader) (fun _ => rfl) _ hs (hroom (.inl rfl))
  case payload =>
    rintro rfl
    obtain ⟨_, rfl⟩ := pushPayload_ok hu
    exact pending_pushThen afterPayload_pending _ hs (hroom (.inr (.inl rfl)))
  case footer =>
    rintro rfl
    cases hu
    exact pending_pushThen (f := afterFooter) (fun _ => rfl) _ hs (hroom (.inr (.inr rfl)))
  case drain =>
    rintro rfl hlevel
    have hbatch : pending s = frameBody (drainSize s) u ++ pending u := drainBatch_pending hs hlevel hu
    exact hbatch
  case forget =>
    rintro (rfl | rfl)
    · cases hu; rfl
    · cases hu
      obtain ⟨_, _, hspill, _⟩ := beginSpill_spec s
      rw [hspill]
      rfl
  case keep =>
    intro hhdr hpay hftr hreset hspill hlow
    by_cases hdrain : i = .drain
    · subst hdrain
      have hwithdrawn := (drainBatch_of_low (hlow rfl)).symm.trans hu
      cases hwithdrawn
      rfl
    · have hkept : pending u = pending s := effect_pending_of_other hi hu hhdr hpay hftr hreset hspill hdrain
      exact hkept

end Sys2Proof.Machine
end

section
/-! Ingest (42_ingest.md): what each polling-agent step but BEGIN_SPILL makes of the state and leaves of it, the sweep over
empty banks, and the transitions of `phase` (R106 to R115). -/

namespace Sys2Proof.Machine

/-! ## Taking an enabled step -/

/-- A step whose guard holds and whose accesses stay inside their spaces has its effect and is entered in the history (R9). -/
theorem exec_of_effect {i : Instr} {s t : State} (hi : i.isStep = true) (hguard : enabled i s = true)
    (h : effect i s = .ok t) : exec i s = .next (record (encode i) t) := by
  rw [exec_of_step hi, tryStep_of_enabled hguard h]

/-! ## SCAN -/

theorem enabled_scan_iff {s : State} : enabled .scan s = true ↔ s.phase = .scan ∧ s.spillState = .beamOn := by
  simp [enabled]

theorem scanBank_of_empty {s : State} (h : s.bankWord s.bankCursor 0 = 0#32) :
    scanBank s = { s with bankCursor := nextBank s.bankCursor } := if_pos h

/-- Settles O17: the two branches of SCAN. -/
theorem scanExaminesOneBank : Obligations.ScanExaminesOneBank := by
  refine ⟨rfl, fun s hphase hbeam => ?_⟩
  have hexec : exec .scan s = .next (record (encode .scan) (scanBank s)) :=
    exec_of_effect rfl (enabled_scan_iff.mpr ⟨hphase, hbeam⟩) rfl
  refine ⟨fun hempty => ⟨_, hexec, ?_⟩, fun hfull => ⟨_, hexec, ?_⟩⟩
  · rw [scanBank_of_empty hempty]
    exact ⟨nextBank_toNat _, hphase, unchangedBut_of_overlay rfl⟩
  · rw [scanBank_of_full hfull]
    exact ⟨rfl, rfl, unchangedBut_of_overlay rfl⟩

/-- Settles O18, by induction on the polling steps: each one passes over an empty bank, and meets the same state but for the
cursor. -/
theorem sweepOfEmptyBanks : Obligations.SweepOfEmptyBanks := by
  intro s hphase hbeam hempty k
  induction k generalizing s with
  | zero => exact ⟨s, rfl, (Nat.mod_eq_of_lt s.bankCursor.isLt).symm, UnchangedBut.refl _ s⟩
  | succ k ih =>
    have hscan : pollingStep s = .scan := by simp [pollingStep, hphase, hbeam]
    have hone := polls_one hscan rfl
    rw [scanBank_of_empty (hempty _)] at hone
    obtain ⟨t, hrest, hcursor, hframe⟩ := ih (record (encode .scan) { s with bankCursor := nextBank s.bankCursor })
      hphase hbeam hempty
    refine ⟨t, Nat.add_comm 1 k ▸ polls_trans hone hrest, ?_, UnchangedBut.trans (unchangedBut_of_overlay rfl) hframe⟩
    have hnext := nextBank_toNat s.bankCursor
    rw [hcursor]
    show ((nextBank s.bankCursor).toNat + k) % 16 = _
    omega

/-! ## CHECK -/

theorem badCount_eq_true {n : Nat} : badCount n = true ↔ n = 0 ∨ 1024 < n := by
  rw [badCount, Bool.or_eq_true, decide_eq_true_eq, decide_eq_true_eq]
  exact Iff.rfl

theorem overflows_eq_true {n : Nat} {s : State} : overflows n s = true ↔ s.cfg.stagingCapacity < s.wr + n + 1 := by
  simp [overflows]

/-- The cause of ID_MISMATCH as R107 puts it: the embedded identifier, if there is one, is not the cursor's bank. -/
theorem idMismatch_eq_true {p : Params} {cursor : BankIdx} {hd f : Word} :
    idMismatch p cursor hd f = true ↔ ∃ id, bankIdOf p hd f = some id ∧ id ≠ cursor := by
  unfold idMismatch
  cases bankIdOf p hd f <;> simp

/-- Settles O19: CHECK in one record update, in each range of the count and the room. -/
theorem checkValidatesRecord : Obligations.CheckValidatesRecord := by
  refine ⟨rfl, fun s n f hvalid hphase hn hf => ?_⟩
  obtain ⟨u, hu⟩ := checkRecord_of_lt s hvalid.footer_high
  have hexec := exec_of_effect (i := .check) rfl (decide_eq_true hphase) hu
  have hframe : UnchangedBut (written .check) s (record (encode .check) u) := exec_frame hexec
  obtain ⟨_, n', f', hn', hf', rfl⟩ := checkRecord_ok hu
  obtain rfl : n' = n := hn'.trans hn.symm
  obtain rfl : f' = f := hf'.trans hf.symm
  refine ⟨_, hexec, rfl, rfl, ?mismatch, fun hbad => ?_, fun hlow hhigh hover => ?_, fun hlow hhigh hroom => ?_, hframe⟩
  case mismatch =>
    have hcause : idMismatch s.cfg s.bankCursor s.hdrReg f' =
        decide (∃ id, bankIdOf s.cfg s.hdrReg f' = some id ∧ id ≠ s.bankCursor) :=
      Bool.eq_iff_iff.mpr (idMismatch_eq_true.trans decide_eq_true_iff.symm)
    exact congrArg (s.fltIdMismatch || ·) hcause
  · simp [record, badCount_eq_true.mpr hbad]
  · simp [record, badCount_eq_false.mpr ⟨hlow, hhigh⟩, overflows_eq_true.mpr hover]
  · simp [record, badCount_eq_false.mpr ⟨hlow, hhigh⟩, overflows_eq_false.mpr hroom]

/-! ## The three push steps -/

theorem effect_pushHdr {s : State} (hroom : s.wr < s.cfg.stagingCapacity) :
    effect .pushHdr s = .ok (afterHeader (stageWord s.hdrReg s)) :=
  congrArg Except.ok (pushThen_of_room _ _ hroom)

theorem effect_pushPay {s : State} (hroom : s.wr < s.cfg.stagingCapacity) (hpay : s.payIdx < 1024) :
    effect .pushPay s = .ok (afterPayload (stageWord (s.bankWord s.bankCursor s.payIdx) s)) := by
  obtain ⟨t, ht⟩ := pushPayload_of_lt hpay
  obtain ⟨_, rfl⟩ := pushPayload_ok ht
  rwa [pushThen_of_room _ _ hroom] at ht

theorem effect_pushFtr {s : State} (hroom : s.wr < s.cfg.stagingCapacity) :
    effect .pushFtr s = .ok (afterFooter (stageWord s.ftrReg s)) :=
  congrArg Except.ok (pushThen_of_room _ _ hroom)

/-- Every staging word after a push step that stages `w` and then writes the sequencer's registers (R98). -/
theorem stageWord_words {w : Word} {s t : State} (h : t.staging = (stageWord w s).staging) :
    t.stagingWord s.wr = w ∧ ∀ a, a ≠ s.wr → t.stagingWord a = s.stagingWord a := by
  have hword (a : Nat) : t.stagingWord a = if a = s.wr then w else s.stagingWord a :=
    (stagingWord_congr h a).trans (stageWord_stagingWord w s a)
  exact ⟨(hword s.wr).trans (if_pos rfl), fun a ha => (hword a).trans (if_neg ha)⟩

/-- Settles O21: the header is staged, and the count chooses the next phase. -/
theorem pushHdrStagesHeader : Obligations.PushHdrStagesHeader := by
  refine ⟨rfl, fun s hphase hroom =>
    ⟨_, exec_of_effect (i := .pushHdr) rfl (decide_eq_true hphase) (effect_pushHdr hroom), ?_⟩⟩
  exact ⟨(stageWord_words rfl).1, rfl, rfl, rfl, rfl, (stageWord_words rfl).2, unchangedBut_of_overlay rfl⟩

/-- Settles O22: the bank's word is staged, and the payload index chooses the next phase. -/
theorem pushPayStagesWord : Obligations.PushPayStagesWord := by
  refine ⟨rfl, fun s hphase hroom hpay hcnt =>
    ⟨_, exec_of_effect (i := .pushPay) rfl (decide_eq_true hphase) (effect_pushPay hroom hpay), ?_⟩⟩
  rw [afterPayload_eq]
  refine ⟨(stageWord_words rfl).1, rfl, rfl, fun hlast => ?_, fun hmore => ?_, (stageWord_words rfl).2,
    unchangedBut_of_overlay rfl⟩
  · have hend : s.payIdx + 1 = s.cntReg := by omega
    exact ⟨if_pos hend, if_pos hend⟩
  · have hgo : s.payIdx + 1 ≠ s.cntReg := by omega
    exact ⟨(if_neg hgo).trans hphase, if_neg hgo⟩

/-- Settles O23: the register CHECK latched is staged. -/
theorem pushFtrStagesFooter : Obligations.PushFtrStagesFooter := by
  refine ⟨rfl, fun s hphase hroom =>
    ⟨_, exec_of_effect (i := .pushFtr) rfl (decide_eq_true hphase) (effect_pushFtr hroom), ?_⟩⟩
  exact ⟨(stageWord_words rfl).1, rfl, rfl, rfl, (stageWord_words rfl).2, unchangedBut_of_overlay rfl⟩

/-! ## CLEAR and IDLE -/

theorem freeBank_bankWord (s : State) (b : BankIdx) {o : Nat} (ho : o < 1024) :
    (freeBank s).bankWord b o = if b = s.bankCursor ∧ o = 0 then 0#32 else s.bankWord b o :=
  clearHeader_bankWord s ho

theorem freeBank_bankWord_of_ne {s : State} {b : BankIdx} {o : Nat} (ho : o < 1024) (hne : b ≠ s.bankCursor ∨ o ≠ 0) :
    (freeBank s).bankWord b o = s.bankWord b o :=
  (freeBank_bankWord s b ho).trans (if_neg fun hsame => hne.elim (· hsame.1) (· hsame.2))

/-- Settles O24: the header under the cursor is zeroed, which is what FILL's guard asks of its bank. -/
theorem clearFreesBank : Obligations.ClearFreesBank := by
  refine ⟨rfl, fun s hphase => ⟨_, exec_of_effect (i := .clear) rfl (decide_eq_true hphase) rfl, ?_⟩⟩
  have hzero : (freeBank s).bankWord s.bankCursor 0 = 0#32 :=
    (freeBank_bankWord s _ (by omega)).trans (if_pos ⟨rfl, rfl⟩)
  exact ⟨hzero, nextBank_toNat _, rfl, fun _ _ _ hhd => enabled_fill_iff.mpr ⟨hzero, hhd⟩,
    fun _ _ ho hne => freeBank_bankWord_of_ne ho hne, unchangedBut_of_overlay rfl⟩

/-- Settles O25: IDLE's guard holds in its rows, so the table selects it there, and its effect is the state itself. -/
theorem idleChangesNothing : Obligations.IdleChangesNothing := by
  refine ⟨rfl, fun s hrows => ?_⟩
  have hguard : enabled .idle s = true := by simpa [enabled, imp_iff_not_or] using hrows
  exact ⟨(eq_pollingStep_of_enabled rfl hguard).symm, _, exec_of_effect rfl hguard rfl, unchangedBut_of_overlay rfl⟩

/-! ## The frame of the polling agent -/

/-- A push step writes the staging word at the write cursor at most (R98). -/
theorem pushThen_stagingWord {f : State → State} (hf : ∀ u, (f u).staging = u.staging) (w : Word) (s : State) {a : Nat}
    (ha : a ≠ s.wr) : (pushThen w f s).stagingWord a = s.stagingWord a := by
  obtain ⟨_, h⟩ | ⟨_, h⟩ := pushThen_cases w f s <;> rw [h]
  · exact (stageWord_words (hf _)).2 a ha
  · rfl

theorem effect_stagingWord {i : Instr} {s t : State} (hi : i.isPolling = true) (h : effect i s = .ok t) {a : Nat}
    (ha : a ≠ s.wr) : t.stagingWord a = s.stagingWord a := by
  by_cases hpush : pushes i
  · obtain rfl | rfl | rfl | ⟨w, rfl⟩ := hpush
    · cases h; exact pushThen_stagingWord (f := afterHeader) (fun _ => rfl) _ s ha
    · obtain ⟨_, rfl⟩ := pushPayload_ok h
      exact pushThen_stagingWord (fun u => by rw [afterPayload_eq]) _ s ha
    · cases h; exact pushThen_stagingWord (f := afterFooter) (fun _ => rfl) _ s ha
    · cases hi
  · exact effect_frame h .staging (polling_writes_staging hi hpush).1 a

/-- Settles O43: the frame of every instruction, the word a push stages, and the header CLEAR zeroes. -/
theorem pollingAgentFrame : Obligations.PollingAgentFrame := by
  intro i s t hi h
  refine ⟨exec_frame h, fun a ha => ?staging, ?clear, fun b o hlow ho => ?bank⟩
  case staging =>
    obtain ⟨_, rfl⟩ | ⟨_, u, hu, rfl⟩ := exec_step_next (isStep_of_isPolling hi) h
    · rfl
    · have hword : u.stagingWord a = s.stagingWord a := effect_stagingWord hi hu ha
      exact hword
  case clear =>
    rintro rfl b o ho hne
    obtain ⟨_, rfl⟩ | ⟨_, u, hu, rfl⟩ := exec_step_next rfl h
    · rfl
    · cases hu; exact freeBank_bankWord_of_ne ho hne
  case bank => exact (polling_bankWord hi h b ho).resolve_right fun hheader => by omega

/-! ## The transitions of `phase` -/

/-- What a polling-agent step that fires makes of the phase: the arcs of the sequencer (R113, R115). -/
def PhaseMove (i : Instr) (s t : State) : Prop :=
  (s.phase = .scan ∧ t.phase = .scan ∧
    ((i = .scan ∧ s.bankWord s.bankCursor 0 = 0#32) ∨ i = .idle ∨ i = .beginSpill)) ∨
  (s.phase = .scan ∧ t.phase = .check ∧ i = .scan ∧ s.bankWord s.bankCursor 0 ≠ 0#32) ∨
  (s.phase = .check ∧ (t.phase = .pushHdr ∨ t.phase = .halt) ∧ i = .check) ∨
  (s.phase = .pushHdr ∧ t.phase = .pushPay ∧ i = .pushHdr ∧ 2 ≤ s.cntReg) ∨
  (s.phase = .pushHdr ∧ t.phase = .pushFtr ∧ i = .pushHdr ∧ s.cntReg = 1) ∨
  (s.phase = .pushPay ∧ t.phase = .pushPay ∧ i = .pushPay ∧ s.payIdx + 1 < s.cntReg) ∨
  (s.phase = .pushPay ∧ t.phase = .pushFtr ∧ i = .pushPay ∧ s.payIdx + 1 = s.cntReg) ∨
  (s.phase = .pushFtr ∧ t.phase = .clear ∧ i = .pushFtr) ∨
  (s.phase = .clear ∧ t.phase = .scan ∧ i = .clear) ∨
  (s.phase = .halt ∧ t.phase = .halt ∧ i = .idle) ∨
  (s.phase = .halt ∧ t.phase = .scan ∧ i = .beginSpill)

theorem checkRecord_phase {s t : State} (h : checkRecord s = .ok t) : t.phase = .pushHdr ∨ t.phase = .halt := by
  obtain ⟨_, n, f, _, _, rfl⟩ := checkRecord_ok h
  cases hfails : badCount n || overflows n s <;> simp

/-- BEGIN_SPILL and IDLE have guards in two phases, SCAN and HALT (R79). -/
theorem phase_of_restful {i : Instr} {s : State} (hi : i = .beginSpill ∨ i = .idle) (hguard : enabled i s = true) :
    s.phase = .scan ∨ s.phase = .halt := by
  obtain rfl | rfl := hi
  · simp only [enabled, Bool.and_eq_true, Bool.or_eq_true, decide_eq_true_eq] at hguard
    obtain ⟨⟨_, hphase⟩, _⟩ := hguard
    exact hphase
  · simp only [enabled, Bool.and_eq_true, Bool.or_eq_true, decide_eq_true_eq] at hguard
    exact hguard.imp And.left And.left

/-- A firing step of the polling agent takes one of the sequencer's arcs; an accepted record has room, so no push overflows
(R98, R115). -/
theorem effect_phaseMove {i : Instr} {s t : State} (hs : RecordInv s) (hi : i.isPolling = true)
    (hguard : enabled i s = true) (h : effect i s = .ok t) : PhaseMove i s t := by
  have hroom := hs.push_room hguard
  unfold PhaseMove
  cases i
  case scan =>
    obtain ⟨hphase, _⟩ := enabled_scan_iff.mp hguard
    cases h
    by_cases hempty : s.bankWord s.bankCursor 0 = 0#32
    · rw [scanBank_of_empty hempty]; simp [hphase, hempty]
    · rw [scanBank_of_full hempty]; simp [hphase, hempty]
  case check => simp [of_decide_eq_true hguard, checkRecord_phase h]
  case pushHdr =>
    have hphase : s.phase = .pushHdr := of_decide_eq_true hguard
    obtain ⟨_, hpos, _⟩ := hs.count (by simp [latched, hphase])
    rw [effect_pushHdr (hroom (.inl rfl))] at h
    cases h
    by_cases hone : s.cntReg = 1
    · simp [hphase, afterHeader, stageWord, hone]
    · have htwo : 2 ≤ s.cntReg := by omega
      simp [hphase, afterHeader, stageWord, hone, htwo]
  case pushPay =>
    have hphase : s.phase = .pushPay := of_decide_eq_true hguard
    have hle : s.payIdx + 1 ≤ s.cntReg := (hs.index hphase).2
    rw [effect_pushPay (hroom (.inr (.inl rfl))) (pushPayload_ok h).1] at h
    cases h
    rw [afterPayload_eq]
    by_cases hlast : s.payIdx + 1 = s.cntReg
    · simp [hphase, stageWord, hlast]
    · have hmore : s.payIdx + 1 < s.cntReg := by omega
      simp [hphase, stageWord, hlast, hmore]
  case pushFtr =>
    rw [effect_pushFtr (hroom (.inr (.inr rfl)))] at h
    cases h
    simp [of_decide_eq_true hguard, afterFooter]
  case clear => cases h; simp [of_decide_eq_true hguard, freeBank]
  case beginSpill =>
    cases h
    have hscan : (beginSpill s).phase = .scan := setSpill_phase _ _
    rcases phase_of_restful (.inl rfl) hguard with hphase | hphase <;> simp [hphase, hscan]
  case idle =>
    cases h
    rcases phase_of_restful (.inr rfl) hguard with hphase | hphase <;> simp [hphase]
  all_goals cases hi

/-- Neither the environment nor the handler writes the phase, but for RESET (R41). -/
theorem phase_not_written {i : Instr} (hi : i.isStep = true) (hpoll : i.isPolling = false) (hreset : i ≠ .reset) :
    .phase ∉ written i := by
  cases i <;> simp_all [Instr.isStep, Instr.isPolling, written]

/-- Settles O49: the polling agent's arcs, and the other agents' frame. -/
theorem phaseTransitions : Obligations.PhaseTransitions := by
  intro i s t hinv hi h
  refine ⟨fun hpoll hreset => exec_frame h .phase (phase_not_written hi hpoll hreset), ?reset, fun hpoll hguard => ?polling⟩
  case reset => rintro rfl; cases h; rfl
  case polling =>
    obtain ⟨hoff, _⟩ | ⟨_, u, hu, rfl⟩ := exec_step_next hi h
    · rw [hguard] at hoff; cases hoff
    · have hmove : PhaseMove i s u := effect_phaseMove hinv.sequencer hpoll hguard hu
      exact hmove

end Sys2Proof.Machine
end

section
/-! Drain (43_drain.md): what DRAIN served high does (`Served`), what it leaves, how many consumer handshakes a spill needs
(R128), and the round trip of one record (R130). -/

namespace Sys2Proof.Machine

/-! ## MBOX_READ -/

theorem consumerRead_eq {k : Nat} {s : State} (h : k < s.cfg.mailboxCapacity) :
    consumerRead k s = .ok { s with ret := .word (s.mailboxWord k) } := by
  simp [consumerRead, mboxRead, h]

/-- Settles O15: the read fills `ret`, which is the model's own field and no element of the block. -/
theorem mboxReadReturnsWord : Obligations.MboxReadReturnsWord := by
  refine fun k s => ⟨rfl, fun hk => ?_⟩
  have hexec : exec (.mboxRead k) s = .next (record (encode (.mboxRead k)) { s with ret := .word (s.mailboxWord k) }) :=
    exec_of_effect rfl rfl (consumerRead_eq hk)
  exact ⟨_, hexec, rfl, unchangedBut_of_overlay rfl⟩

/-! ## The branches of DRAIN -/

theorem endOfDrain_of_empty {s : State} (h : s.occupied = 0) : endOfDrain s = showDrained (setSpill .ready s) := if_pos h

theorem endOfDrain_of_nonempty {s : State} (h : s.occupied ≠ 0) : endOfDrain s = s := if_neg h

theorem firstDrain_of_beamOn {s : State} (h : s.spillState = .beamOn) :
    firstDrain s = showBeamOff { setSpill .beamOff s with rd := 0 } := if_pos h

theorem firstDrain_of_ne_beamOn {s : State} (h : s.spillState ≠ .beamOn) : firstDrain s = s := if_neg h

/-- Where DRAIN takes its first word: the first drain of a spill sets the read cursor to 0 (R123). -/
def drainStart (s : State) : Nat := if s.spillState = .beamOn then 0 else s.rd

/-- In BEAM_ON the read cursor stands at 0 already (R24). -/
theorem CursorInv.drainStart_eq {s : State} (hs : CursorInv s) : drainStart s = s.rd := by
  unfold drainStart
  split
  · exact (hs.beam_on ‹_›).symm
  · rfl

theorem firstDrain_rd (s : State) : (firstDrain s).rd = drainStart s := by rw [(firstDrain_spec s).1]; rfl

theorem firstDrain_occupied (s : State) : (firstDrain s).occupied = s.occupied := by rw [(firstDrain_spec s).1]

theorem firstDrain_mailboxWord (s : State) (k : Nat) : (firstDrain s).mailboxWord k = s.mailboxWord k :=
  mailboxWord_congr (by rw [(firstDrain_spec s).1]) k

theorem firstDrain_stagingWord (s : State) (a : Nat) : (firstDrain s).stagingWord a = s.stagingWord a :=
  stagingWord_congr (by rw [(firstDrain_spec s).1]) a

theorem endOfDrain_rd (s : State) : (endOfDrain s).rd = s.rd := by rw [endOfDrain_spec]

theorem endOfDrain_occupied (s : State) : (endOfDrain s).occupied = s.occupied := by rw [endOfDrain_spec]

theorem endOfDrain_mailboxWord (s : State) (k : Nat) : (endOfDrain s).mailboxWord k = s.mailboxWord k :=
  mailboxWord_congr (by rw [endOfDrain_spec]) k

/-! ## DRAIN served high -/

/-- What a DRAIN that finds the level high makes of the state, reachable or not: the frame in the mailbox, the cursors,
the latch, and the spill state and indicators as the emptiness after the pop decides (R121 to R126, R139). -/
structure Served (s t : State) : Prop where
  count : t.mailboxWord 0 = BitVec.ofNat 32 (drainSize s)
  body : ∀ k, k < drainSize s → t.mailboxWord (1 + k) = s.stagingWord (drainStart s + k)
  above : ∀ k, drainSize s < k → t.mailboxWord k = s.mailboxWord k
  rd : t.rd = drainStart s + drainSize s
  occupied : t.occupied = s.occupied - drainSize s
  latch : t.edgeLatch = false
  emptied : t.occupied = 0 → t.spillState = .ready ∧ t.ind0 = true ∧ t.ind1 = true
  first : t.occupied ≠ 0 → s.spillState = .beamOn → t.spillState = .beamOff ∧ t.ind0 = false ∧ t.ind1 = true
  later : t.occupied ≠ 0 → s.spillState ≠ .beamOn →
    t.spillState = s.spillState ∧ t.ind0 = s.ind0 ∧ t.ind1 = s.ind1

/-- Moving the batch advances the read cursor, and leaves the spill state and the indicators to the two drain rules around
it (R99, R121). -/
theorem moveBatch_registers {s t : State} (h : moveBatch s = .ok t) :
    (t.rd = s.rd + drainSize s ∧ t.occupied = s.occupied - drainSize s) ∧
    t.spillState = s.spillState ∧ t.ind0 = s.ind0 ∧ t.ind1 = s.ind1 := by
  rw [(moveBatch_ok h).1]
  exact ⟨⟨rfl, rfl⟩, rfl, rfl, rfl⟩

theorem drainBatch_served {s t : State} (hlevel : s.lineLevel = true) (h : drainBatch s = .ok t) : Served s t := by
  rw [drainBatch_of_high hlevel] at h
  obtain ⟨u, hu, rfl⟩ := exists_of_map_ok h
  obtain ⟨⟨hrd, hocc⟩, hspill, hind0, hind1⟩ := moveBatch_registers hu
  obtain ⟨_, hframe, _⟩ := moveBatch_ok hu
  simp only [firstDrain_drainSize, firstDrain_rd, firstDrain_occupied, firstDrain_stagingWord,
    firstDrain_mailboxWord] at hrd hocc hframe
  have hword (k : Nat) : (acknowledge (endOfDrain u)).mailboxWord k = if k = 0 then BitVec.ofNat 32 (drainSize s)
      else if k ≤ drainSize s then s.stagingWord (drainStart s + (k - 1)) else s.mailboxWord k :=
    (endOfDrain_mailboxWord u k).trans (hframe k)
  have hleft : (acknowledge (endOfDrain u)).occupied = u.occupied := endOfDrain_occupied u
  refine ⟨?count, ?body, ?above, (endOfDrain_rd u).trans hrd, hleft.trans hocc, rfl, ?emptied, ?first, ?later⟩
  case count => rw [hword, if_pos rfl]
  case body =>
    intro k hk
    rw [hword, if_neg (by omega), if_pos (by omega), Nat.add_sub_cancel_left]
  case above =>
    intro k hk
    rw [hword, if_neg (by omega), if_neg (by omega)]
  case emptied =>
    intro hempty
    rw [endOfDrain_of_empty (hleft.symm.trans hempty)]
    exact ⟨setSpill_spillState _ _, rfl, rfl⟩
  case first =>
    intro hmore hbeam
    rw [endOfDrain_of_nonempty (hleft ▸ hmore)]
    rw [firstDrain_of_beamOn hbeam] at hspill hind0 hind1
    exact ⟨hspill.trans (setSpill_spillState _ _), hind0, hind1⟩
  case later =>
    intro hmore hbeam
    rw [endOfDrain_of_nonempty (hleft ▸ hmore)]
    rw [firstDrain_of_ne_beamOn hbeam] at hspill hind0 hind1
    exact ⟨hspill, hind0, hind1⟩

/-- The three ways a DRAIN answers: not enabled, the edge withdrawn, a batch served (R121, R129). -/
theorem exec_drain_cases {s t : State} (h : exec .drain s = .next t) :
    (s.edgeLatch = false ∧ t = s) ∨
    (s.edgeLatch = true ∧ s.lineLevel = false ∧ t = record (encode .drain) (acknowledge s)) ∨
    (s.edgeLatch = true ∧ s.lineLevel = true ∧ Served s t) := by
  obtain ⟨hoff, rfl⟩ | ⟨hlatch, u, hu, rfl⟩ := exec_step_next rfl h
  · exact .inl ⟨hoff, rfl⟩
  · cases hlevel : s.lineLevel with
    | false => cases (drainBatch_of_low hlevel).symm.trans hu; exact .inr (.inl ⟨hlatch, rfl, rfl⟩)
    | true => exact .inr (.inr ⟨hlatch, rfl, { drainBatch_served hlevel hu with }⟩)

/-- A DRAIN that is enabled and finds the level high serves a batch. -/
theorem exec_drain_served {s t : State} (hlatch : s.edgeLatch = true) (hlevel : s.lineLevel = true)
    (h : exec .drain s = .next t) : Served s t := by
  obtain ⟨hoff, _⟩ | ⟨_, hlow, _⟩ | ⟨_, _, hserved⟩ := exec_drain_cases h
  · rw [hlatch] at hoff; cases hoff
  · rw [hlevel] at hlow; cases hlow
  · exact hserved

/-- A DRAIN that is enabled and finds the level low clears the latch and does nothing else (R129). -/
theorem exec_drain_withdrawn {s : State} (hlatch : s.edgeLatch = true) (hlevel : s.lineLevel = false) :
    ∃ t, exec .drain s = .next t ∧ t.edgeLatch = false ∧ UnchangedBut [.edgeLatch] s t :=
  ⟨_, exec_of_effect rfl hlatch (drainBatch_of_low hlevel), rfl, unchangedBut_of_overlay rfl⟩

/-- An enabled DRAIN answers: the words it takes lie inside their spaces (R24, R48, R49). -/
theorem exec_drain_of_cursors {s : State} (hvalid : s.cfg.Valid) (hs : CursorInv s) (hlatch : s.edgeLatch = true) :
    ∃ t, exec .drain s = .next t ∧ CursorInv t := by
  obtain ⟨u, hu⟩ := drainBatch_of_cursors (Nat.le_of_succ_le hvalid.mailbox) hs
  exact ⟨_, exec_of_effect rfl hlatch hu, (drainBatch_keeps_cursors hu hs).record _⟩

/-- Settles O29: both levels, the buffer being empty after the pop exactly when the batch is all of it. -/
theorem drainMovesOneBatch : Obligations.DrainMovesOneBatch := by
  refine ⟨rfl, fun s n hvalid hs hlatch hlevel hn => ?_, fun s => exec_drain_withdrawn⟩
  have hsize : drainSize s = n := hn.symm
  obtain ⟨t, ht, _⟩ := exec_drain_of_cursors hvalid hs hlatch
  obtain ⟨hcount, hbody, habove, hrd, hocc, hclear, hemptied, hfirst, hlater⟩ := exec_drain_served hlatch hlevel ht
  rw [hsize] at hcount hbody habove hrd hocc
  rw [hs.drainStart_eq] at hbody hrd
  have hle : n ≤ s.occupied := hsize ▸ Nat.min_le_right _ _
  have hmore : s.occupied ≠ n → t.occupied ≠ 0 := by omega
  exact ⟨t, ht, hcount, hbody, habove, hrd, hocc, hclear, fun heq => hemptied (by omega), fun hne => hfirst (hmore hne),
    fun hne => hlater (hmore hne), (exec_frame ht).mono (by simp [written])⟩

/-- Settles O30: the last three clauses of `Served`, which asks no invariant of the state. -/
theorem drainDrivesSpillState : Obligations.DrainDrivesSpillState := by
  intro s t hlatch hlevel h
  have hserved := exec_drain_served hlatch hlevel h
  exact ⟨hserved.emptied, hserved.first, hserved.later⟩

/-- Settles O31: the latch DRAIN leaves clear is the guard of the next one. -/
theorem drainNoOpLaw : Obligations.DrainNoOpLaw := by
  have hskip (s : State) (h : s.edgeLatch = false) : enabled .drain s = false ∧ exec .drain s = .next s :=
    ⟨h, disabledStepHasNoEffect .drain s rfl h⟩
  refine ⟨fun s => exec_drain_withdrawn, hskip, fun s t h => hskip t ?_⟩
  obtain ⟨_, _, hcleared, _⟩ := edgeLatchWriters .drain s t h
  exact hcleared (.inl rfl)

/-- Settles O44: the frame of DRAIN, and the mailbox in each of the three ways it answers. -/
theorem handlerAgentFrame : Obligations.HandlerAgentFrame := by
  refine fun s t h => ⟨exec_frame h, ?_⟩
  obtain ⟨_, rfl⟩ | ⟨_, _, rfl⟩ | ⟨_, hlevel, hserved⟩ := exec_drain_cases h
  · exact ⟨fun _ _ => rfl, fun _ _ => rfl⟩
  · exact ⟨fun _ _ => rfl, fun _ _ => rfl⟩
  · exact ⟨hserved.above, fun hlow => by rw [hlevel] at hlow; cases hlow⟩

/-! ## Consumer handshakes -/

theorem runAll_singleton {i : Instr} {s t : State} (h : exec i s = .next t) : runAll [i] s = .next t := by
  simp only [runAll, h]

theorem runAll_append {is js : List Instr} {s t u : State} (hst : runAll is s = .next t) (htu : runAll js t = .next u) :
    runAll (is ++ js) s = .next u := by
  induction is generalizing s with
  | nil => cases hst; exact htu
  | cons i is ih =>
    simp only [List.cons_append, runAll] at hst ⊢
    split at hst
    · exact ih hst
    · cases hst
    · cases hst

theorem pulses_succ (k : Nat) : pulses (k + 1) = pulses k ++ pulse := by
  simp [pulses, List.replicate_succ']

/-- The line rises, and the edge is latched (R144). -/
def raiseLine (s : State) : State := { s with lineLevel := true, edgeLatch := true }

theorem exec_lineRise_of_low {s : State} (hlevel : s.lineLevel = false) :
    exec .lineRise s = .next (record (encode .lineRise) (raiseLine s)) :=
  exec_of_effect rfl (by simp [enabled, hlevel]) rfl

/-- RISE_AND_DRAIN from a low line serves a batch (R84, R144). -/
theorem riseAndDrain_served {s : State} (hvalid : s.cfg.Valid) (hs : CursorInv s) (hlevel : s.lineLevel = false) :
    ∃ t, runAll riseAndDrain s = .next t ∧ Served s t ∧ CursorInv t ∧ t.cfg = s.cfg ∧ t.lineLevel = true := by
  have hrise := exec_lineRise_of_low hlevel
  obtain ⟨t, ht, hcursors⟩ := exec_drain_of_cursors (s := record (encode .lineRise) (raiseLine s)) hvalid
    (hs.congr rfl rfl rfl rfl rfl) rfl
  have hserved := exec_drain_served rfl rfl ht
  exact ⟨t, runAll_append (runAll_singleton hrise) (runAll_singleton ht), { hserved with }, hcursors,
    (parametersConstant _ _ _ ht).1, exec_frame ht .lineLevel (by simp [written])⟩

/-- What one handshake from a low line leaves of the batch it serves: LINE_FALL writes the line and the latch alone
(R145), and an edge that it latches (`EDGE_BOTH`) is met by the next rise. -/
structure Handshake (s t : State) : Prop where
  cfg : t.cfg = s.cfg
  lineLevel : t.lineLevel = false
  cursors : CursorInv t
  count : t.mailboxWord 0 = BitVec.ofNat 32 (drainSize s)
  occupied : t.occupied = s.occupied - drainSize s
  emptied : t.occupied = 0 → t.spillState = .ready
  first : t.occupied ≠ 0 → s.spillState = .beamOn → t.spillState = .beamOff
  later : t.occupied ≠ 0 → s.spillState ≠ .beamOn → t.spillState = s.spillState

theorem runAll_pulse {s : State} (hvalid : s.cfg.Valid) (hs : CursorInv s) (hlevel : s.lineLevel = false) :
    ∃ t, runAll pulse s = .next t ∧ Handshake s t := by
  obtain ⟨t, hrun, hserved, hcursors, hcfg, hhigh⟩ := riseAndDrain_served hvalid hs hlevel
  have hfall : exec .lineFall t = .next (record (encode .lineFall) (lowerLine t)) := exec_of_effect rfl hhigh rfl
  refine ⟨_, runAll_append (is := riseAndDrain) hrun (runAll_singleton hfall), ?_⟩
  exact {
    cfg := hcfg
    lineLevel := rfl
    cursors := hcursors.congr rfl rfl rfl rfl rfl
    count := hserved.count
    occupied := hserved.occupied
    emptied := fun h => (hserved.emptied h).1
    first := fun h hbeam => (hserved.first h hbeam).1
    later := fun h hbeam => (hserved.later h hbeam).1 }

/-! ## How many drains a spill needs (R128) -/

/-- A spill with the words of `s` staged, `k` handshakes after `s`: each has taken `M − 1` words or what was left,
and once they are all taken the spill is over. -/
structure SpillAfter (k : Nat) (s t : State) : Prop where
  cfg : t.cfg = s.cfg
  lineLevel : t.lineLevel = false
  cursors : CursorInv t
  occupied : t.occupied = s.occupied - (s.cfg.mailboxCapacity - 1) * k
  emptied : k ≠ 0 → t.occupied = 0 → t.spillState = .ready
  waiting : t.occupied ≠ 0 → t.spillState = if k = 0 then .beamOn else .beamOff

/-- One more handshake, and the count word it writes. -/
theorem SpillAfter.handshake {k : Nat} {s t u : State} (h : SpillAfter k s t) (hpulse : Handshake t u) :
    SpillAfter (k + 1) s u ∧
    u.mailboxWord 0 =
      BitVec.ofNat 32 (min (s.cfg.mailboxCapacity - 1) (s.occupied - (s.cfg.mailboxCapacity - 1) * k)) := by
  have hsize : drainSize t =
      min (s.cfg.mailboxCapacity - 1) (s.occupied - (s.cfg.mailboxCapacity - 1) * k) := by
    rw [drainSize, batchSize, h.cfg, h.occupied]
  have hocc : u.occupied = s.occupied - (s.cfg.mailboxCapacity - 1) * (k + 1) := by
    rw [hpulse.occupied, hsize, h.occupied, Nat.mul_succ]
    omega
  refine ⟨⟨hpulse.cfg.trans h.cfg, hpulse.lineLevel, hpulse.cursors, hocc, fun _ => hpulse.emptied, fun hmore => ?_⟩,
    hsize ▸ hpulse.count⟩
  have hbefore : t.occupied ≠ 0 := fun hzero => hmore (by rw [hpulse.occupied, hzero, Nat.zero_sub])
  have hspill := h.waiting hbefore
  rw [if_neg (Nat.succ_ne_zero k)]
  by_cases hfirst : k = 0
  · exact hpulse.first hmore (hspill.trans (if_pos hfirst))
  · rw [if_neg hfirst] at hspill
    exact (hpulse.later hmore (by simp [hspill])).trans hspill

/-- Every number of handshakes runs from BEAM_ON with the line low. -/
theorem spillAfter_pulses {s : State} (hvalid : s.cfg.Valid) (hs : CursorInv s) (hbeam : s.spillState = .beamOn)
    (hlevel : s.lineLevel = false) (k : Nat) : ∃ t, runAll (pulses k) s = .next t ∧ SpillAfter k s t := by
  induction k with
  | zero => exact ⟨s, rfl, rfl, hlevel, hs, rfl, fun h => absurd rfl h, fun _ => hbeam⟩
  | succ k ih =>
    obtain ⟨t, hrun, ht⟩ := ih
    obtain ⟨u, hpulse, hu⟩ := runAll_pulse (ht.cfg ▸ hvalid) ht.cursors ht.lineLevel
    exact ⟨u, pulses_succ k ▸ runAll_append hrun hpulse, (ht.handshake hu).1⟩

/-- `k ≥ 1` frames of `d` words are fewer than `T` words need exactly when they do not hold them all. -/
theorem lt_drains_iff {T d k : Nat} (hd : 1 ≤ d) (hk : 1 ≤ k) : k < max 1 ((T + (d - 1)) / d) ↔ d * k < T := by
  have hquot : k < (T + (d - 1)) / d ↔ (k + 1) * d ≤ T + (d - 1) := Nat.le_div_iff_mul_le hd
  rw [Nat.mul_comm d k]
  rw [Nat.succ_mul] at hquot
  omega

/-- Settles O32, by induction on the handshakes (`spillAfter_pulses`); the last one is taken apart for its
count word. -/
theorem drainsNeededBySpill : Obligations.DrainsNeededBySpill := by
  intro s T needed hvalid hs hbeam hlevel hT hneeded k hpos hle
  subst hT
  have hroom : 1 ≤ s.cfg.mailboxCapacity - 1 := Nat.le_sub_one_of_lt hvalid.mailbox
  have hmore : k < needed ↔ (s.cfg.mailboxCapacity - 1) * k < s.occupied := hneeded ▸ lt_drains_iff hroom hpos
  obtain ⟨k, rfl⟩ := Nat.exists_eq_add_of_le' hpos
  obtain ⟨t, hrun, ht⟩ := spillAfter_pulses hvalid hs hbeam hlevel k
  obtain ⟨u, hpulse, hu⟩ := runAll_pulse (ht.cfg ▸ hvalid) ht.cursors ht.lineLevel
  obtain ⟨hafter, hcount⟩ := ht.handshake hu
  refine ⟨u, pulses_succ k ▸ runAll_append hrun hpulse, ?_⟩
  have hocc := hafter.occupied
  have hshare : (s.cfg.mailboxCapacity - 1) * (k + 1) = (s.cfg.mailboxCapacity - 1) * k + (s.cfg.mailboxCapacity - 1) :=
    Nat.mul_succ _ _
  by_cases hlast : k + 1 < needed
  · have hleft := hmore.mp hlast
    rw [if_pos hlast, if_pos hlast, hcount, Nat.min_eq_left (by omega)]
    exact ⟨(hafter.waiting (by omega)).trans (if_neg (Nat.succ_ne_zero k)), rfl, hocc⟩
  · have hnone := mt hmore.mpr hlast
    have hk : needed - 1 = k := by omega
    rw [if_neg hlast, if_neg hlast, hcount, hk, Nat.min_eq_right (by omega)]
    exact ⟨hafter.emptied (Nat.succ_ne_zero k) (by omega), rfl, hocc⟩

/-! ## The round trip of one record (R130) -/

/-- Settles O34: the record is staged whole (O28), and the batch that takes it is all that waits (O29). -/
theorem recordRoundTrip : Obligations.RecordRoundTrip := by
  intro s n hvalid hphase hbeam hwr hrd hocc hlevel hfull hcount hpos hle hroom hframe
  obtain ⟨t, hingest, _, _, _, htwr, htocc, htrd, hhdr, hpay, hftr, _, _, _, hmail, hline, _, hcfg⟩ :=
    recordIngestedWhole s n hvalid hphase hbeam hfull hcount hpos hle (by omega)
  rw [hwr, Nat.zero_add] at htwr hftr
  rw [hocc, Nat.zero_add] at htocc
  rw [hrd] at htrd
  simp only [hwr, Nat.zero_add] at hhdr hpay
  have hcursors : CursorInv t := ⟨by omega, by rw [hcfg]; omega, by omega, fun _ => htrd⟩
  have hsize : drainSize t = n + 1 := by
    rw [drainSize, batchSize, hcfg, htocc]
    exact Nat.min_eq_right hframe
  obtain ⟨u, hdrain, hserved, _⟩ := riseAndDrain_served (hcfg ▸ hvalid) hcursors (hline.trans hlevel)
  obtain ⟨hcountWord, hbody, habove, _, huocc, hlatch, hemptied, _, _⟩ := hserved
  rw [hsize] at hcountWord hbody habove huocc
  simp only [hcursors.drainStart_eq, htrd, Nat.zero_add] at hbody
  have hempty : u.occupied = 0 := by omega
  exact ⟨t, u, hingest, hdrain, hcountWord, (hbody 0 (by omega)).trans hhdr,
    fun k hk hkn => (hbody k (by omega)).trans (hpay k hk hkn), (hbody n (by omega)).trans hftr,
    fun k hk => (habove k hk).trans (hmail k), (hemptied hempty).1, hempty, hlatch⟩

end Sys2Proof.Machine
end

section
/-! The spill state machine (44_spill_fsm.md): BEGIN_SPILL, SET_START and the indicator primitives, the table of the
changes of `spill_state` (R132), and the order law over the event history (R136). -/

namespace Sys2Proof.Machine

/-! ## BEGIN_SPILL -/

/-- BEGIN_SPILL's guard (R133). -/
theorem enabled_beginSpill_iff {s : State} : enabled .beginSpill s = true ↔
    s.spillState = .ready ∧ (s.phase = .scan ∨ s.phase = .halt) ∧ s.startEn = true := by
  simp [enabled, and_assoc]

/-- Settles O26: one record update, and the banks whose headers are zero. -/
theorem beginSpillInitialises : Obligations.BeginSpillInitialises := by
  refine ⟨rfl, fun s hready hphase hstart => ?_⟩
  have hexec : exec .beginSpill s = .next (record (encode .beginSpill) (beginSpill s)) :=
    exec_of_effect rfl (enabled_beginSpill_iff.mpr ⟨hready, hphase, hstart⟩) rfl
  refine ⟨_, hexec, fun b => (beginSpill_bankWord s b (by omega)).trans (if_pos rfl),
    fun b o hlow ho => (beginSpill_bankWord s b ho).trans (if_neg (by omega)), ?_⟩
  have hframe := exec_frame hexec
  obtain ⟨_, _, hspill, _⟩ := beginSpill_spec s
  rw [hspill] at hframe ⊢
  exact ⟨rfl, rfl, rfl, rfl, rfl, rfl, rfl, rfl, hframe⟩

/-! ## SET_START -/

/-- Settles O14: the level is what BEGIN_SPILL's guard and the dispatch table read. -/
theorem setStartSetsLevel : Obligations.SetStartSetsLevel := by
  refine ⟨fun v => by cases v <;> rfl, fun v s => ⟨record (encode (.setStart v)) { s with startEn := v }, rfl, rfl,
    unchangedBut_of_overlay rfl, fun hready hphase => ?dispatch, fun hguard => ?guard⟩⟩
  case dispatch => rcases hphase with hphase | hphase <;> simp [pollingStep, hready, hphase]
  case guard =>
    obtain ⟨_, _, hlevel⟩ := enabled_beginSpill_iff.mp hguard
    exact hlevel

/-! ## The indicator primitives -/

/-- Settles O42: each call is one update of its own indicator. -/
theorem indicatorPrimitives : Obligations.IndicatorPrimitives := by
  refine ⟨fun _ => ⟨rfl, rfl⟩, fun s => ⟨?_, ?_, ?_, ?_, ⟨_, rfl, rfl, rfl⟩⟩⟩
  all_goals exact ⟨_, rfl, rfl, unchangedBut_of_overlay rfl⟩

/-! ## The changes of `spill_state` (R132) -/

/-- DRAIN takes the spill state on only by serving a batch, and the emptiness after it decides where to (R123, R124). -/
theorem drain_spillState {s t : State} (h : exec .drain s = .next t) :
    t.spillState = s.spillState ∨
    (s.edgeLatch = true ∧ s.lineLevel = true ∧
      ((s.spillState = .beamOn ∧ t.spillState = .beamOff ∧ t.occupied ≠ 0) ∨
        ((s.spillState = .beamOff ∨ s.spillState = .beamOn) ∧ t.spillState = .ready ∧ t.occupied = 0))) := by
  obtain ⟨_, rfl⟩ | ⟨_, _, rfl⟩ | ⟨hlatch, hlevel, hserved⟩ := exec_drain_cases h
  · exact .inl rfl
  · exact .inl rfl
  · by_cases hempty : t.occupied = 0
    · have hready := (hserved.emptied hempty).1
      cases hspill : s.spillState with
      | ready => exact .inl hready
      | beamOn => exact .inr ⟨hlatch, hlevel, .inr ⟨.inr rfl, hready, hempty⟩⟩
      | beamOff => exact .inr ⟨hlatch, hlevel, .inr ⟨.inl rfl, hready, hempty⟩⟩
    · by_cases hbeam : s.spillState = .beamOn
      · exact .inr ⟨hlatch, hlevel, .inl ⟨hbeam, (hserved.first hempty hbeam).1, hempty⟩⟩
      · exact .inl (hserved.later hempty hbeam).1

/-- RESET, BEGIN_SPILL and DRAIN alone write `spill_state` (R41, R132). -/
theorem spillState_not_written {i : Instr} (hreset : i ≠ .reset) (hbegin : i ≠ .beginSpill) (hdrain : i ≠ .drain) :
    .spillState ∉ written i := by
  cases i
  case indicatorSet k | indicatorClear k => by_cases hk : k = 0 <;> simp [written, hk]
  all_goals simp_all [written]

/-- Settles O48: the three writers of `spill_state`, and the frame of every other instruction. -/
theorem spillStateTransitions : Obligations.SpillStateTransitions := by
  intro i s t h
  by_cases hreset : i = .reset
  · subst hreset
    cases h
    exact .inr (.inr (.inr (.inr ⟨setSpill_spillState _ _, rfl⟩)))
  by_cases hbegin : i = .beginSpill
  · subst hbegin
    obtain ⟨_, rfl⟩ | ⟨hguard, u, hu, rfl⟩ := exec_step_next rfl h
    · exact .inl rfl
    · obtain ⟨hready, hphase, hstart⟩ := enabled_beginSpill_iff.mp hguard
      cases hu
      exact .inr (.inl ⟨hready, setSpill_spillState _ _, rfl, hphase, hstart⟩)
  by_cases hdrain : i = .drain
  · subst hdrain
    obtain hkept | ⟨hlatch, hlevel, ⟨hon, hoff, hmore⟩ | ⟨hfrom, hready, hempty⟩⟩ := drain_spillState h
    · exact .inl hkept
    · exact .inr (.inr (.inl ⟨hon, hoff, rfl, hlatch, hlevel, hmore⟩))
    · exact .inr (.inr (.inr (.inl ⟨hfrom, hready, rfl, hlatch, hlevel, hempty⟩)))
  exact .inl (exec_frame h .spillState (spillState_not_written hreset hbegin hdrain))

/-! ## The order law (R136) -/

/-- Where the table takes each spill state next (R132), RESET apart. -/
def nextSpill : SpillState → SpillState
  | .ready => .beamOn
  | .beamOn => .beamOff
  | .beamOff => .ready

/-- A position in the cycle is one of three (R136). -/
theorem mod_three_cases (k : Nat) :
    (k % 3 = 0 ∧ (k + 1) % 3 = 1) ∨ (k % 3 = 1 ∧ (k + 1) % 3 = 2) ∨ (k % 3 = 2 ∧ (k + 1) % 3 = 0) := by omega

theorem stateAfter_succ (k : Nat) : stateAfter (k + 1) = nextSpill (stateAfter k) := by
  obtain ⟨h, h'⟩ | ⟨h, h'⟩ | ⟨h, h'⟩ := mod_three_cases k <;> simp [stateAfter, nextSpill, h, h']

theorem cycleAt_eq (k : Nat) : cycleAt k = (stateAfter k, nextSpill (stateAfter k)) := by
  obtain ⟨h, _⟩ | ⟨h, _⟩ | ⟨h, _⟩ := mod_three_cases k <;> simp [cycleAt, stateAfter, nextSpill, h]

/-- The order law reads the spill state and the history. -/
theorem OrderLaw.congr {s t : State} (hs : OrderLaw s) (hspill : t.spillState = s.spillState)
    (hhistory : t.history = s.history) : OrderLaw t := by
  unfold OrderLaw
  rwa [hspill, hhistory]

theorem OrderLaw.of_no_transitions {s : State} (hnone : transitionsSinceReset s.history = [])
    (hready : s.spillState = .ready) : OrderLaw s := by
  unfold OrderLaw
  rw [hnone]
  exact ⟨rfl, hready⟩

/-- A step that is not RESET leaves the transitions as they are. -/
theorem OrderLaw.record {s : State} (hs : OrderLaw s) {e : Event} (he : e ≠ encode .reset) : OrderLaw (record e s) := by
  have hkept : transitionsSinceReset (Machine.record e s).history = transitionsSinceReset s.history := if_neg he
  unfold OrderLaw
  rwa [hkept]

/-- A write of `spill_state` that takes it on is the next entry of the cycle, and one that leaves it is no entry (R33). -/
theorem OrderLaw.setSpill {s : State} (hs : OrderLaw s) {x : SpillState}
    (hx : x = s.spillState ∨ x = nextSpill s.spillState) : OrderLaw (setSpill x s) := by
  by_cases hsame : s.spillState = x
  · have hnone : Machine.setSpill x s = s := if_pos hsame
    rwa [hnone]
  · obtain ⟨hprefix, hend⟩ := hs
    have hnext : x = nextSpill s.spillState := hx.resolve_left (Ne.symm hsame)
    unfold OrderLaw
    rw [setSpill_history, if_neg hsame, setSpill_spillState]
    simp only [transitionsSinceReset, List.reverse_cons, List.length_cons, List.range_succ, List.map_append, hprefix]
    exact ⟨by rw [List.map_singleton, cycleAt_eq, ← hend, hnext], by rw [stateAfter_succ, ← hend, hnext]⟩

/-! ### The history -/

theorem eq_reset_of_encode {i : Instr} (h : encode i = encode .reset) : i = .reset := by
  have hword := congrArg Event.word h
  rw [encode_word, encode_word] at hword
  have hop : i.op = .reset := op_eq_of_eventWordOf_eq hword
  cases i
  case reset => rfl
  all_goals cases hop

theorem pushThen_history {f : State → State} (hf : ∀ u, (f u).history = u.history) (w : Word) (s : State) :
    (pushThen w f s).history = s.history := by
  obtain ⟨_, h⟩ | ⟨_, h⟩ := pushThen_cases w f s
  · rw [h, hf]; rfl
  · rw [h]

/-- An instruction that does not write `spill_state` enters no transition (R33). -/
theorem effect_history {i : Instr} {s t : State} (hspill : .spillState ∉ written i) (h : effect i s = .ok t) :
    t.history = s.history := by
  cases i with
  | reset | beginSpill | drain => simp [written] at hspill
  | fill => rw [(fillBank_ok h).1]
  | mboxRead => rw [consumerRead_ok h]
  | scan => cases h; rw [scanBank_eq]
  | check => obtain ⟨_, _, _, _, _, rfl⟩ := checkRecord_ok h; rfl
  | pushHdr => cases h; exact pushThen_history (f := afterHeader) (fun _ => rfl) _ s
  | pushPay =>
    obtain ⟨_, rfl⟩ := pushPayload_ok h
    exact pushThen_history (fun u => by rw [afterPayload_eq]) _ s
  | pushFtr => cases h; exact pushThen_history (f := afterFooter) (fun _ => rfl) _ s
  | push w => cases h; rw [pushWord_eq_pushThen]; exact pushThen_history (fun _ => rfl) w s
  | readPayloadWord | readFooter => obtain ⟨_, _, rfl⟩ := exists_of_map_ok h; rfl
  | popBatch =>
    obtain ⟨⟨_, u⟩, hpop, rfl⟩ := exists_of_map_ok h
    obtain ⟨_, rfl⟩ := popBatch_ok hpop
    rfl
  | indicatorSet k => cases h; rw [indicatorSet_eq]
  | indicatorClear k => cases h; rw [indicatorClear_eq]
  | lineRise | lineFall | setStart | clear | idle | headerOf | isFull | wordCount | clearHeader | stagingReset
  | occupied | readLevel | acknowledge | diagnosticWrite => cases h; rfl

/-! ### The order law, instruction by instruction -/

/-- BEGIN_SPILL in READY writes BEAM_ON, whatever it zeroes before (R133). -/
theorem beginSpill_keeps_order {s : State} (hs : OrderLaw s) (hready : s.spillState = .ready) :
    OrderLaw (beginSpill s) := by
  obtain ⟨hcleared, _⟩ := clearHeaders_spec 16 (by omega) s
  have hspill : (clearHeaders 16 s).spillState = s.spillState := by rw [hcleared]
  have hhistory : (clearHeaders 16 s).history = s.history := by rw [hcleared]
  unfold beginSpill
  rw [show Config.numBanks = 16 from rfl]
  generalize clearHeaders 16 s = u at hspill hhistory
  have hzeroed : OrderLaw (showBeamOn (resumeIngest (resetCursors { u with bankCursor := 0#4 }))) :=
    hs.congr hspill hhistory
  exact hzeroed.setSpill (.inr (congrArg nextSpill (hspill.trans hready)).symm)

theorem firstDrain_keeps_order {s : State} (hs : OrderLaw s) : OrderLaw (firstDrain s) := by
  by_cases hbeam : s.spillState = .beamOn
  · rw [firstDrain_of_beamOn hbeam]
    exact (hs.setSpill (.inr (by rw [hbeam]; rfl))).congr rfl rfl
  · rwa [firstDrain_of_ne_beamOn hbeam]

theorem firstDrain_ne_beamOn (s : State) : (firstDrain s).spillState ≠ .beamOn := by
  rw [(firstDrain_spec s).2]
  split
  · simp
  · assumption

/-- The end of a drain comes after the first drain, so it goes back to READY from BEAM_OFF, or was in READY (R124). -/
theorem endOfDrain_keeps_order {s : State} (hs : OrderLaw s) (hbeam : s.spillState ≠ .beamOn) :
    OrderLaw (endOfDrain s) := by
  by_cases hempty : s.occupied = 0
  · rw [endOfDrain_of_empty hempty]
    refine OrderLaw.congr (hs.setSpill ?_) rfl rfl
    cases hspill : s.spillState with
    | ready => exact .inl rfl
    | beamOn => exact absurd hspill hbeam
    | beamOff => exact .inr rfl
  · rwa [endOfDrain_of_nonempty hempty]

/-- One DRAIN may enter two transitions, BEAM_ON to BEAM_OFF and BEAM_OFF to READY, in this order (R123, R124). -/
theorem drainBatch_keeps_order {s t : State} (h : drainBatch s = .ok t) (hs : OrderLaw s) : OrderLaw t := by
  cases hlevel : s.lineLevel with
  | false => cases (drainBatch_of_low hlevel).symm.trans h; exact hs.congr rfl rfl
  | true =>
    rw [drainBatch_of_high hlevel] at h
    obtain ⟨u, hu, rfl⟩ := exists_of_map_ok h
    obtain ⟨_, hspill, _⟩ := moveBatch_registers hu
    have hhistory : u.history = (firstDrain s).history := by rw [(moveBatch_ok hu).1]
    have hmoved : OrderLaw u := (firstDrain_keeps_order hs).congr hspill hhistory
    exact (endOfDrain_keeps_order hmoved (hspill ▸ firstDrain_ne_beamOn s)).congr rfl rfl

theorem effect_keeps_order {i : Instr} {s t : State} (hreset : i ≠ .reset)
    (hready : i = .beginSpill → s.spillState = .ready) (h : effect i s = .ok t) (hs : OrderLaw s) : OrderLaw t := by
  by_cases hbegin : i = .beginSpill
  · subst hbegin
    cases h
    exact beginSpill_keeps_order hs (hready rfl)
  by_cases hdrain : i = .drain
  · subst hdrain
    exact drainBatch_keeps_order h hs
  have hspill := spillState_not_written hreset hbegin hdrain
  exact hs.congr (effect_frame h .spillState hspill) (effect_history hspill h)

/-- RESET's own transition stands before its entry in the history, so none stands after it (log 21). -/
theorem exec_keeps_order {i : Instr} {s t : State} (h : exec i s = .next t) (hs : OrderLaw s) : OrderLaw t := by
  by_cases hreset : i = .reset
  · subst hreset
    cases h
    exact .of_no_transitions (if_pos rfl) (setSpill_spillState _ _)
  · obtain ⟨_, _, rfl⟩ | ⟨_, hguard, u, hu, rfl⟩ | ⟨hprim, hu⟩ := exec_next h
    · exact hs
    · have hready : i = .beginSpill → s.spillState = .ready := by
        rintro rfl
        exact (enabled_beginSpill_iff.mp hguard).1
      exact (effect_keeps_order hreset hready hu hs).record fun he => hreset (eq_reset_of_encode he)
    · exact effect_keeps_order hreset (by rintro rfl; cases hprim) hu hs

/-- A step runs one instruction, in a state with the same spill state and history (R55). -/
theorem step_next {s t : State} (h : step s = .next t) :
    ∃ i u, exec i u = .next t ∧ u.spillState = s.spillState ∧ u.history = s.history := by
  cases hscript : s.script with
  | nil => exact ⟨coreChoice s, turn s, (step_of_unscripted hscript).symm.trans h, rfl, rfl⟩
  | cons e rest =>
    cases hdecode : decode e with
    | ok i => exact ⟨i, _, (step_of_scripted hscript hdecode).symm.trans h, rfl, rfl⟩
    | error r => simp [step, fetch, hscript, hdecode] at h

/-- Settles O57: every instruction enters the next transitions of the cycle, or none. -/
theorem spillOrderLaw : Obligations.SpillOrderLaw := by
  refine ⟨fun _ _ _ => .of_no_transitions rfl rfl, fun s t hs h => ?_⟩
  obtain ⟨i, u, hexec, hspill, hhistory⟩ := step_next h
  exact exec_keeps_order hexec (hs.congr hspill hhistory)

end Sys2Proof.Machine
end

section
/-! The synchronizer (45_edge_sync.md): what the line's two steps do to the level and the latch, and what an edge and its
withdrawal leave together. -/

namespace Sys2Proof.Machine

/-! ## The edge line's steps -/

/-- Settles O12: where the line is low the step is `raiseLine`, and the latch it sets is DRAIN's guard. -/
theorem lineRiseSetsLatch : Obligations.LineRiseSetsLatch := by
  refine ⟨rfl, fun s => ⟨fun hlow => ?low, fun hhigh => ?high⟩⟩
  case low =>
    have hrise := exec_lineRise_of_low hlow
    exact ⟨_, hrise, rfl, rfl, rfl, exec_frame hrise⟩
  case high => exact disabledStepHasNoEffect .lineRise s rfl (by simp [enabled, hhigh])

/-- `lowerLine`'s conditional is the disjunction of R145. -/
@[simp] theorem lowerLine_edgeLatch (s : State) : (lowerLine s).edgeLatch = (s.cfg.edgeBoth || s.edgeLatch) := by
  cases hboth : s.cfg.edgeBoth <;> simp [lowerLine, hboth]

theorem exec_lineFall_of_high {s : State} (hhigh : s.lineLevel = true) :
    exec .lineFall s = .next (record (encode .lineFall) (lowerLine s)) := exec_of_effect rfl hhigh rfl

/-- Settles O13: where the line is high the step is `lowerLine`, and a DRAIN after it meets the level low (R129). -/
theorem lineFallLowersLevel : Obligations.LineFallLowersLevel := by
  refine ⟨rfl, fun s => ⟨fun hhigh => ?high, disabledStepHasNoEffect .lineFall s rfl⟩⟩
  case high =>
    have hfall := exec_lineFall_of_high hhigh
    have hlatch : (record (encode .lineFall) (lowerLine s)).edgeLatch = (s.cfg.edgeBoth || s.edgeLatch) :=
      lowerLine_edgeLatch s
    refine ⟨_, hfall, rfl, hlatch, exec_frame hfall, fun hboth => exec_drain_withdrawn ?_ rfl⟩
    rw [hlatch, hboth, Bool.true_or]

/-! ## An edge and its withdrawal -/

/-- An element that reads the same after all need not be listed among those written. -/
theorem UnchangedBut.of_cons {e : Elem} {es : List Elem} {s t : State} (h : UnchangedBut (e :: es) s t)
    (he : unchanged e s t) : UnchangedBut es s t := by
  intro e' hout
  by_cases heq : e' = e
  · exact heq ▸ he
  · exact h e' (by simp [heq, hout])

/-- A rise and a fall from a low line leave the latch set, whatever `EDGE_BOTH` is, and nothing else (R144, R145). -/
theorem runAll_lineRise_lineFall {s : State} (hlow : s.lineLevel = false) :
    ∃ t, runAll [.lineRise, .lineFall] s = .next t ∧ t.lineLevel = false ∧ t.edgeLatch = true ∧
      UnchangedBut [.edgeLatch] s t := by
  have hrise := exec_lineRise_of_low hlow
  have hfall := exec_lineFall_of_high (s := record (encode .lineRise) (raiseLine s)) rfl
  have hframe := UnchangedBut.trans (es := [.lineLevel, .edgeLatch]) (exec_frame hrise) (exec_frame hfall)
  exact ⟨_, runAll_append (runAll_singleton hrise) (runAll_singleton hfall), rfl,
    (lowerLine_edgeLatch _).trans (Bool.or_true _), hframe.of_cons hlow.symm⟩

/-- Settles O35: after a rise and a fall the latch is set already, so that a second rise adds no edge for a second DRAIN
to find, and a DRAIN finds the level low. -/
theorem edgesMergeAndWithdraw : Obligations.EdgesMergeAndWithdraw := by
  intro s hlow
  obtain ⟨t, hrun, htlow, hlatch, hframe⟩ := runAll_lineRise_lineFall hlow
  refine ⟨?merge, ?withdraw⟩
  case merge =>
    have hrise := exec_lineRise_of_low htlow
    refine ⟨_, runAll_append hrun (runAll_singleton hrise), rfl, rfl,
      (hframe.mono (by simp)).trans (exec_frame hrise), fun u hdrain => ?_⟩
    obtain ⟨_, _, hspent⟩ := drainNoOpLaw
    exact hspent _ u hdrain
  case withdraw =>
    obtain ⟨u, hdrain, hcleared, hkept⟩ := exec_drain_withdrawn hlatch htlow
    exact ⟨u, runAll_append hrun (runAll_singleton hdrain), hcleared, (hkept .lineLevel (by simp)).trans htlow,
      hframe.trans hkept⟩

end Sys2Proof.Machine
end

section
/-! HALT (60_exceptions.md): what can still happen to a halted sequencer, and the two steps that take it back to SCAN
(R159). -/

namespace Sys2Proof.Machine

/-- The polling agent's two rows in HALT (R79). -/
theorem pollingStep_of_halt {s : State} (hphase : s.phase = .halt) :
    pollingStep s = if s.spillState = .ready ∧ s.startEn = true then .beginSpill else .idle := by
  cases hspill : s.spillState <;> simp [pollingStep, hphase, hspill]

/-- The only polling-agent step with an effect in HALT, but for BEGIN_SPILL, is IDLE (R79, R112). -/
theorem eq_idle_of_halt {i : Instr} {s : State} (hphase : s.phase = .halt) (hpoll : i.isPolling = true)
    (hbegin : i ≠ .beginSpill) (hguard : enabled i s = true) : i = .idle := by
  have hi := eq_pollingStep_of_enabled hpoll hguard
  rw [pollingStep_of_halt hphase] at hi
  split at hi
  · exact absurd hi hbegin
  · exact hi

/-- What a step may write in HALT that does not leave it: neither the phase nor a fault flag (R41). -/
def writableInHalt : List Elem :=
  [.bank, .mailbox, .rd, .occupied, .lineLevel, .edgeLatch, .startEn, .ind0, .ind1, .spillState]

/-- The environment, but for RESET, and the handler stay within it. -/
theorem written_subset_writableInHalt {i : Instr} (hi : i.isStep = true) (hpoll : i.isPolling = false)
    (hreset : i ≠ .reset) : written i ⊆ writableInHalt := by
  by_cases hdrain : i = .drain
  · simp [hdrain, written, writableInHalt]
  · obtain ⟨hwritten, _⟩ := environment_writes hi hreset hpoll hdrain
    exact List.Subset.trans hwritten (by simp [writableInHalt])

/-- In HALT the sequencer does nothing, and the other agents write neither the phase nor a fault flag (R41, R159). -/
theorem exec_frame_of_halt {i : Instr} {s t : State} (hi : i.isStep = true) (hphase : s.phase = .halt)
    (hbegin : i ≠ .beginSpill) (hreset : i ≠ .reset) (h : exec i s = .next t) : UnchangedBut writableInHalt s t := by
  obtain ⟨_, rfl⟩ | ⟨hguard, _⟩ := exec_step_next hi h
  · exact UnchangedBut.refl _ _
  refine (exec_frame h).mono ?_
  cases hpoll : i.isPolling with
  | true => simp [eq_idle_of_halt hphase hpoll hbegin hguard, written]
  | false => exact written_subset_writableInHalt hi hpoll hreset

theorem exec_reset_phase {s t : State} (h : exec .reset s = .next t) : t.phase = .scan := by
  cases h
  rfl

/-- Where BEGIN_SPILL's guard holds, it leaves phase SCAN: from HALT this is the resumption of R159. -/
theorem exec_beginSpill_phase {s t : State} (hguard : enabled .beginSpill s = true) (h : exec .beginSpill s = .next t) :
    t.phase = .scan := by
  have hexec : exec .beginSpill s = .next (record (encode .beginSpill) (beginSpill s)) := exec_of_effect rfl hguard rfl
  cases h.symm.trans hexec
  exact setSpill_phase _ _

/-- Settles O20: the frame of HALT, and its two exits. -/
theorem haltLeftOnlyByNewSpillOrReset : Obligations.HaltLeftOnlyByNewSpillOrReset := by
  refine fun i s t hi hphase h => ⟨fun hbegin hreset => ?stays, ?exits, pollingStep_of_halt hphase⟩
  case stays =>
    have hframe := exec_frame_of_halt hi hphase hbegin hreset h
    exact ⟨(hframe .phase (by decide)).trans hphase, hframe .fltStagingOvf (by decide),
      hframe .fltBankCount (by decide), hframe .fltIdMismatch (by decide)⟩
  case exits =>
    rintro (rfl | ⟨rfl, hready, hstart⟩)
    · exact exec_reset_phase h
    · exact exec_beginSpill_phase (enabled_beginSpill_iff.mpr ⟨hready, .inr hphase, hstart⟩) h

end Sys2Proof.Machine
end

section
/-! Where the machine stops (log 19): an effect whose access leaves its space is a fault of the instruction, and no
instruction is refused (R47 to R49). -/

namespace Sys2Proof.Machine

/-! ## From the effect to the outcome -/

/-- Where its guard holds, an instruction faults as its effect does. -/
theorem exec_of_effect_error {i : Instr} {s : State} {e : Fault} (hguard : enabled i s = true)
    (h : effect i s = .error e) : exec i s = .fault e := by
  cases hi : i.isStep with
  | true => rw [exec_of_step hi]; simp only [tryStep, hguard, if_true, h]
  | false => rw [exec_of_primitive hi, h]; rfl

theorem tryStep_ne_refused (i : Instr) (f : State → Except Fault State) (s : State) (r : Refusal) :
    tryStep i f s ≠ .refused r := by
  unfold tryStep
  split
  · split <;> simp
  · simp

theorem outcomeOf_ne_refused (x : Except Fault State) (r : Refusal) : outcomeOf x ≠ .refused r := by
  cases x <;> simp [outcomeOf]

/-- Every row of the opcode table has a meaning (R77, R78). -/
theorem exec_ne_refused (i : Instr) (s : State) (r : Refusal) : exec i s ≠ .refused r := by
  cases hi : i.isStep with
  | true => rw [exec_of_step hi]; exact tryStep_ne_refused i _ s r
  | false => rw [exec_of_primitive hi]; exact outcomeOf_ne_refused _ r

/-! ## Accesses outside their space -/

theorem mboxRead_of_ge {k : Nat} {s : State} (h : s.cfg.mailboxCapacity ≤ k) :
    mboxRead k s = .error (.mailboxIndex k) := if_neg (Nat.not_lt.mpr h)

theorem readPayloadWord_of_ge (b : BankIdx) {k : Nat} (s : State) (h : 1024 ≤ k) :
    readPayloadWord b k s = .error (.bankIndex b k) := if_neg (Nat.not_lt.mpr h)

theorem stagRead_of_ge {a : Nat} {s : State} (h : s.cfg.stagingCapacity ≤ a) :
    stagRead a s = .error (.stagingIndex a) := if_neg (Nat.not_lt.mpr h)

/-- A batch that is not empty reads at the read cursor first (R99). -/
theorem popBatch_of_ge {m : Nat} {s : State} (hsize : 0 < batchSize m s) (h : s.cfg.stagingCapacity ≤ s.rd) :
    popBatch m s = .error (.stagingIndex s.rd) := by
  obtain ⟨n, hn⟩ := Nat.exists_eq_succ_of_ne_zero hsize.ne'
  simp only [popBatch, hn, stagReadRun, stagRead_of_ge h]

/-- Settles O60: the first access of each of the four effects is the one that leaves its space. -/
theorem accessOutsideSpaceFaults : Obligations.AccessOutsideSpaceFaults := by
  refine fun s => ⟨fun k hk => ?mailbox, fun b k hk => ?bank, fun hphase hk => ?payload,
    fun m hm hocc hrd => ?staging, fun i => exec_ne_refused i s⟩
  case mailbox => exact exec_of_effect_error rfl (by simp only [effect, consumerRead, mboxRead_of_ge hk])
  case bank => exact exec_of_effect_error rfl (by rw [effect, readPayloadWord_of_ge b s hk]; rfl)
  case payload =>
    exact exec_of_effect_error (decide_eq_true hphase)
      (by simp only [effect, pushPayload, readPayloadWord_of_ge s.bankCursor s hk])
  case staging =>
    exact exec_of_effect_error rfl (by rw [effect, popBatch_of_ge (Nat.lt_min.mpr ⟨hm, hocc⟩) hrd]; rfl)

end Sys2Proof.Machine
end

section
/-! Reset and hazards (70_reset_and_hazards.md): the start premises of R179 and the step between them, and an edge
latched in READY across a spill start (R193). -/

namespace Sys2Proof.Machine

/-! ## The start premises (R179) -/

theorem cleanReady_resetWith (cfg : Params) (line start : Bool) : CleanReady (State.resetWith cfg line start) :=
  ⟨⟨rfl, .inl rfl, rfl, rfl⟩, rfl, rfl, rfl, rfl⟩

/-- Settles O27: BEGIN_SPILL gives the cursors, the headers and the spill state their values, and writes neither the
latch nor a fault flag. -/
theorem cleanSpillStartReached : Obligations.CleanSpillStartReached := by
  refine ⟨cleanReady_resetWith, fun s hclean hstart => ?_⟩
  obtain ⟨⟨hready, hphase, hlatch, _⟩, _, hovf, hcount, hid⟩ := hclean
  obtain ⟨_, hbegin⟩ := beginSpillInitialises
  obtain ⟨t, ht, hheaders, _, hcursor, hwr, hrd, hocc, hscan, _, _, hbeam, hframe⟩ := hbegin s hready hphase hstart
  exact ⟨t, ht, hbeam, hscan, hcursor, hwr, hrd, hocc, hheaders, (hframe .edgeLatch (by simp)).trans hlatch,
    (hframe .fltStagingOvf (by simp)).trans hovf, (hframe .fltBankCount (by simp)).trans hcount,
    (hframe .fltIdMismatch (by simp)).trans hid⟩

/-! ## DRAIN with nothing staged (R126) -/

theorem drainSize_of_empty {s : State} (h : s.occupied = 0) : drainSize s = 0 := by simp [drainSize, batchSize, h]

/-- A DRAIN served with nothing staged answers with count word 0 and ends in READY, from every spill state (R126). -/
theorem Served.of_empty {s t : State} (h : Served s t) (hempty : s.occupied = 0) :
    t.occupied = 0 ∧ t.mailboxWord 0 = 0#32 ∧ t.spillState = .ready := by
  have hnone : t.occupied = 0 := by rw [h.occupied, hempty, Nat.zero_sub]
  exact ⟨hnone, by rw [h.count, drainSize_of_empty hempty], (h.emptied hnone).1⟩

/-- The batch is the count word 0 alone, and no staging word is read, wherever the read cursor stands (R122). -/
theorem moveBatch_of_empty {s : State} (hM : 0 < s.cfg.mailboxCapacity) (h : s.occupied = 0) :
    moveBatch s = .ok (putMailbox 0 0#32 s) := by
  have hsize : batchSize (s.cfg.mailboxCapacity - 1) s = 0 := drainSize_of_empty h
  have hpop : popBatch (s.cfg.mailboxCapacity - 1) (putMailbox 0 0#32 s) = .ok ([], putMailbox 0 0#32 s) :=
    popBatch_of_empty hsize
  simp [moveBatch, hsize, mboxWrite, hM, hpop, mboxWriteRun]

/-- The history after a write of `spill_state` is that of the history and the spill state before it (R33). -/
theorem setSpill_history_congr (x : SpillState) {s t : State} (hspill : t.spillState = s.spillState)
    (hhistory : t.history = s.history) : (setSpill x t).history = (setSpill x s).history := by
  rw [setSpill_history, setSpill_history, hspill, hhistory]

/-- An enabled DRAIN with nothing staged and the line high answers, and enters in the history the first drain's
transition and then the one back to READY, each where it is a change (R121). -/
theorem exec_drain_of_empty {s : State} (hM : 0 < s.cfg.mailboxCapacity) (hempty : s.occupied = 0)
    (hlatch : s.edgeLatch = true) (hlevel : s.lineLevel = true) :
    ∃ t, exec .drain s = .next t ∧ Served s t ∧
      t.history = .step (encode .drain) :: (setSpill .ready (firstDrain s)).history := by
  have hnone : (firstDrain s).occupied = 0 := (firstDrain_occupied s).trans hempty
  have hmove : moveBatch (firstDrain s) = .ok (putMailbox 0 0#32 (firstDrain s)) :=
    moveBatch_of_empty (by rwa [(firstDrain_spec s).1]) hnone
  have heffect : effect .drain s = .ok (acknowledge (endOfDrain (putMailbox 0 0#32 (firstDrain s)))) := by
    rw [effect, drainBatch_of_high hlevel, hmove]; rfl
  have hexec := exec_of_effect (i := .drain) rfl hlatch heffect
  refine ⟨_, hexec, exec_drain_served hlatch hlevel hexec, ?_⟩
  rw [endOfDrain_of_empty (s := putMailbox 0 0#32 (firstDrain s)) hnone, record_history, acknowledge_history,
    showDrained_history]
  exact congrArg _ (setSpill_history_congr .ready rfl rfl)

/-! ## An edge pending across a spill start (R193) -/

/-- BEGIN_SPILL in READY enters its one transition, whatever it zeroes before (R33, R133). -/
theorem beginSpill_history {s : State} (hready : s.spillState = .ready) :
    (beginSpill s).history = .transition .ready .beamOn :: s.history := by
  obtain ⟨hcleared, _⟩ := clearHeaders_spec 16 (by omega) s
  have hspill : (clearHeaders 16 s).spillState = .ready := by rw [hcleared]; exact hready
  have hhistory : (clearHeaders 16 s).history = s.history := by rw [hcleared]
  simp [beginSpill, setSpill_history, hspill, hhistory]

/-- What DRAIN reads of the state BEGIN_SPILL leaves (R133). -/
theorem beginSpill_meets_drain (s : State) :
    (beginSpill s).spillState = .beamOn ∧ (beginSpill s).occupied = 0 ∧ (beginSpill s).cfg = s.cfg ∧
    (beginSpill s).edgeLatch = s.edgeLatch ∧ (beginSpill s).lineLevel = s.lineLevel := by
  obtain ⟨_, _, hspec, _⟩ := beginSpill_spec s
  rw [hspec]
  exact ⟨rfl, rfl, rfl, rfl, rfl⟩

/-- From BEAM_ON an emptied buffer takes the spill state through BEAM_OFF (R123, R124, R126). -/
theorem drained_history_of_beamOn {s : State} (hbeam : s.spillState = .beamOn) :
    (setSpill .ready (firstDrain s)).history =
      .transition .beamOff .ready :: .transition .beamOn .beamOff :: s.history := by
  rw [firstDrain_of_beamOn hbeam]
  simp [showBeamOff, indicatorSet_eq, indicatorClear_eq, setSpill_history, hbeam]

/-- Settles O37: in both orders the DRAIN finds nothing staged, after BEGIN_SPILL because it has emptied the buffer. -/
theorem edgePendingAcrossSpillStart : Obligations.EdgePendingAcrossSpillStart := by
  intro s hvalid hready hphase hstart hlatch hlevel
  have hM : 0 < s.cfg.mailboxCapacity := Nat.lt_of_succ_lt hvalid.mailbox
  refine ⟨?spillFirst, fun hempty => ?drainFirst⟩
  case spillFirst =>
    have hguard := enabled_beginSpill_iff.mpr ⟨hready, hphase, hstart⟩
    have hbegin : exec .beginSpill s = .next (record (encode .beginSpill) (beginSpill s)) :=
      exec_of_effect rfl hguard rfl
    obtain ⟨hbeam, hnone, hcfg, hkept, hhigh⟩ := beginSpill_meets_drain s
    obtain ⟨u, hu, hserved, hhistory⟩ := exec_drain_of_empty (s := record (encode .beginSpill) (beginSpill s))
      (hM.trans_eq (congrArg _ hcfg.symm)) hnone (hkept.trans hlatch) (hhigh.trans hlevel)
    obtain ⟨hzero, hcount, hback⟩ := hserved.of_empty hnone
    refine ⟨_, u, hbegin, hkept.trans hlatch, hu, hback, hzero, hcount, ?_⟩
    rw [hhistory, drained_history_of_beamOn (s := record _ (beginSpill s)) hbeam, record_history,
      beginSpill_history hready]
    rfl
  case drainFirst =>
    obtain ⟨t, ht, hserved, _⟩ := exec_drain_of_empty hM hempty hlatch hlevel
    obtain ⟨_, hcount, hstays⟩ := hserved.of_empty hempty
    have hkept : t.phase = s.phase := exec_frame ht .phase (by simp [written])
    have hlevelKept : t.startEn = s.startEn := exec_frame ht .startEn (by simp [written])
    exact ⟨t, ht, hstays, hcount,
      enabled_beginSpill_iff.mpr ⟨hstays, by rwa [hkept], hlevelKept.trans hstart⟩⟩

end Sys2Proof.Machine
end
